-- ==== Sys2Proof/Word.lean ====
section
/-! DEFINITION. The words of the core: bytes, 16-bit words and addresses, nibbles (00_scope.md R5, R7). -/

namespace Sys2Proof

/-- An 8-bit value: a general register, a timer, a byte of memory (R5 `XLEN`, R39). -/
abbrev Byte := BitVec 8

/-- A 16-bit instruction word, most significant bit 15 (R71). -/
abbrev Word := BitVec 16

/-- A 16-bit address, the width of `I` and of `pc` (R5 `ILEN`, `PCLEN`; R51). -/
abbrev Addr := BitVec 16

/-- A 4-bit field of an instruction word (R72). -/
abbrev Nibble := BitVec 4

/-- The number of a general register `V[0..15]`; every value is legal (R20, R72). -/
abbrev Reg := BitVec 4

end Sys2Proof
end

