-- ==== Sys2Proof/Syntax.lean ====
section
/-! DEFINITION. The instructions: one constructor per row of spec/opcode_table.json, in the table's order
(30_encoding.md R75 to R79, R83). Register numbers and bit fields are bit vectors of the field's width (R72); the counts
`N` of `00CN`, `00DN` and `DXYN` (R73) are numbers, which WellFormed bounds. -/

namespace Sys2Proof

inductive Instr where
  /-- `00CN` SCD N: scroll the selected planes down by `n` (43_graphics.md R163). -/
  | scd (n : Nat)
  /-- `00DN` SCU N: scroll the selected planes up by `n` (R164). -/
  | scu (n : Nat)
  /-- `00E0` CLS: clear the selected planes (R161). -/
  | cls
  /-- `00EE` RET: return from subroutine (42_control_flow.md R143). -/
  | ret
  /-- `00FB` SCR: scroll the selected planes right by 4 (R165). -/
  | scr
  /-- `00FC` SCL: scroll the selected planes left by 4 (R166). -/
  | scl
  /-- `00FD` EXIT: stop (44_timer_key_system.md R185). -/
  | exit
  /-- `00FE` LOW: low resolution (R167). -/
  | low
  /-- `00FF` HIGH: high resolution (R168). -/
  | high
  /-- `1NNN` JP NNN (R141). -/
  | jp (nnn : BitVec 12)
  /-- `2NNN` CALL NNN (R142). -/
  | call (nnn : BitVec 12)
  /-- `3XNN` SE Vx,NN: skip if equal (R146). -/
  | seVxNN (x : Reg) (nn : Byte)
  /-- `4XNN` SNE Vx,NN: skip if not equal (R147). -/
  | sneVxNN (x : Reg) (nn : Byte)
  /-- `5XY0` SE Vx,Vy: skip if equal (R148). -/
  | seVxVy (x y : Reg)
  /-- `5XY2` SAVE Vx-Vy: store a register range (41_memory_ops.md R128). -/
  | save (x y : Reg)
  /-- `5XY3` LOAD Vx-Vy: load a register range (R129). -/
  | load (x y : Reg)
  /-- `6XNN` LD Vx,NN (40_alu.md R101). -/
  | ldVxNN (x : Reg) (nn : Byte)
  /-- `7XNN` ADD Vx,NN (R102). -/
  | addVxNN (x : Reg) (nn : Byte)
  /-- `8XY0` LD Vx,Vy (R103). -/
  | ldVxVy (x y : Reg)
  /-- `8XY1` OR Vx,Vy (R104). -/
  | orVxVy (x y : Reg)
  /-- `8XY2` AND Vx,Vy (R105). -/
  | andVxVy (x y : Reg)
  /-- `8XY3` XOR Vx,Vy (R106). -/
  | xorVxVy (x y : Reg)
  /-- `8XY4` ADD Vx,Vy (R107). -/
  | addVxVy (x y : Reg)
  /-- `8XY5` SUB Vx,Vy (R108). -/
  | subVxVy (x y : Reg)
  /-- `8XY6` SHR Vx,Vy (R109). -/
  | shrVxVy (x y : Reg)
  /-- `8XY7` SUBN Vx,Vy (R110). -/
  | subnVxVy (x y : Reg)
  /-- `8XYE` SHL Vx,Vy (R111). -/
  | shlVxVy (x y : Reg)
  /-- `9XYN` SNE Vx,Vy: skip if not equal; the field `n` is held but not examined (R149, D8). -/
  | sneVxVy (x y : Reg) (n : Nibble)
  /-- `ANNN` LD I,NNN (R120). -/
  | ldINNN (nnn : BitVec 12)
  /-- `BNNN` JP V0,NNN (R144). -/
  | jpV0 (nnn : BitVec 12)
  /-- `CXNN` RND Vx,NN (R112). -/
  | rnd (x : Reg) (nn : Byte)
  /-- `DXYN` DRW Vx,Vy,N (R170). -/
  | drw (x y : Reg) (n : Nat)
  /-- `EX9E` SKP Vx: skip if the key is pressed (R150). -/
  | skp (x : Reg)
  /-- `EXA1` SKNP Vx: skip if the key is not pressed (R151). -/
  | sknp (x : Reg)
  /-- `F000 NNNN` LD I,long NNNN: the one two-word form (R121, R70). -/
  | ldILong (nnnn : Word)
  /-- `FN01` PLANE N: the `X` field is an immediate mask (R169). -/
  | plane (n : Nibble)
  /-- `F002` AUDIO (R132). -/
  | audio
  /-- `FX07` LD Vx,DT (R180). -/
  | ldVxDT (x : Reg)
  /-- `FX0A` LD Vx,K (R183). -/
  | ldVxK (x : Reg)
  /-- `FX15` LD DT,Vx (R181). -/
  | ldDTVx (x : Reg)
  /-- `FX18` LD ST,Vx (R182). -/
  | ldSTVx (x : Reg)
  /-- `FX1E` ADD I,Vx (R122). -/
  | addIVx (x : Reg)
  /-- `FX29` LD F,Vx: small glyph address (R123). -/
  | ldFVx (x : Reg)
  /-- `FX30` LD HF,Vx: large glyph address (R124). -/
  | ldHFVx (x : Reg)
  /-- `FX33` LD B,Vx: store BCD (R125). -/
  | ldBVx (x : Reg)
  /-- `FX55` LD [I],Vx: store `V0..VX` (R126). -/
  | ldMemVx (x : Reg)
  /-- `FX65` LD Vx,[I]: load `V0..VX` (R127). -/
  | ldVxMem (x : Reg)
  /-- `FX75` LD R,Vx: save to `userFlags` (R130). -/
  | ldRVx (x : Reg)
  /-- `FX85` LD Vx,R: load from `userFlags` (R131). -/
  | ldVxR (x : Reg)
deriving DecidableEq, Repr

end Sys2Proof
end

