-- ==== Sys2Proof/WellFormed.lean ====
section
/-! DEFINITION. Which instructions have an encoding: the three counts `N` fit their 4-bit field (30_encoding.md R72, R73).
Every other field is a bit vector of the field's own width, and every value of it is legal (R72), so there is nothing
else to check. -/

namespace Sys2Proof

/-- The instruction's fields fit the word that encodes it. -/
def Instr.wellFormed : Instr → Bool
  | .scd n => n < 16
  | .scu n => n < 16
  | .drw _ _ n => n < 16
  | .cls => true
  | .ret => true
  | .scr => true
  | .scl => true
  | .exit => true
  | .low => true
  | .high => true
  | .jp _ => true
  | .call _ => true
  | .seVxNN _ _ => true
  | .sneVxNN _ _ => true
  | .seVxVy _ _ => true
  | .save _ _ => true
  | .load _ _ => true
  | .ldVxNN _ _ => true
  | .addVxNN _ _ => true
  | .ldVxVy _ _ => true
  | .orVxVy _ _ => true
  | .andVxVy _ _ => true
  | .xorVxVy _ _ => true
  | .addVxVy _ _ => true
  | .subVxVy _ _ => true
  | .shrVxVy _ _ => true
  | .subnVxVy _ _ => true
  | .shlVxVy _ _ => true
  | .sneVxVy _ _ _ => true
  | .ldINNN _ => true
  | .jpV0 _ => true
  | .rnd _ _ => true
  | .skp _ => true
  | .sknp _ => true
  | .ldILong _ => true
  | .plane _ => true
  | .audio => true
  | .ldVxDT _ => true
  | .ldVxK _ => true
  | .ldDTVx _ => true
  | .ldSTVx _ => true
  | .addIVx _ => true
  | .ldFVx _ => true
  | .ldHFVx _ => true
  | .ldBVx _ => true
  | .ldMemVx _ => true
  | .ldVxMem _ => true
  | .ldRVx _ => true
  | .ldVxR _ => true

end Sys2Proof
end

