-- ==== Sys2Proof/Decode.lean ====
section
/-! DEFINITION. The decoder, total on any bytes and rejecting by name, and the encoder, both from the encoding tables of
30_encoding.md (R70 to R82). -/

namespace Sys2Proof

/-! ## Fields of an instruction word (R72) -/

/-- `w[15:12]`, the opcode family. -/
def Word.family (w : Word) : Nibble := w.extractLsb' 12 4

/-- `w[11:8]`, the field `X`. -/
def Word.x (w : Word) : Nibble := w.extractLsb' 8 4

/-- `w[7:4]`, the field `Y`. -/
def Word.y (w : Word) : Nibble := w.extractLsb' 4 4

/-- `w[3:0]`, the field `N`. -/
def Word.n (w : Word) : Nibble := w.extractLsb' 0 4

/-- `w[7:0]`, the field `NN`. -/
def Word.nn (w : Word) : Byte := w.extractLsb' 0 8

/-- `w[11:0]`, the field `NNN`. -/
def Word.nnn (w : Word) : BitVec 12 := w.extractLsb' 0 12

/-! ## One-word instructions -/

/-- Family 0x0 (R75): all 16 bits fixed, but `00CN` and `00DN`, which fix the upper 12. -/
def decodeFamily0 (w : Word) : Option Instr :=
  match w.extractLsb' 4 12 with
  | 0x00C#12 => some (.scd w.n.toNat)
  | 0x00D#12 => some (.scu w.n.toNat)
  | _ =>
    match w with
    | 0x00E0#16 => some .cls
    | 0x00EE#16 => some .ret
    | 0x00FB#16 => some .scr
    | 0x00FC#16 => some .scl
    | 0x00FD#16 => some .exit
    | 0x00FE#16 => some .low
    | 0x00FF#16 => some .high
    | _ => none

/-- Family 0x5 (R76), by the low nibble. -/
def decodeFamily5 (w : Word) : Option Instr :=
  match w.n with
  | 0x0#4 => some (.seVxVy w.x w.y)
  | 0x2#4 => some (.save w.x w.y)
  | 0x3#4 => some (.load w.x w.y)
  | _ => none

/-- Family 0x8 (R77), by the low nibble. -/
def decodeFamily8 (w : Word) : Option Instr :=
  match w.n with
  | 0x0#4 => some (.ldVxVy w.x w.y)
  | 0x1#4 => some (.orVxVy w.x w.y)
  | 0x2#4 => some (.andVxVy w.x w.y)
  | 0x3#4 => some (.xorVxVy w.x w.y)
  | 0x4#4 => some (.addVxVy w.x w.y)
  | 0x5#4 => some (.subVxVy w.x w.y)
  | 0x6#4 => some (.shrVxVy w.x w.y)
  | 0x7#4 => some (.subnVxVy w.x w.y)
  | 0xE#4 => some (.shlVxVy w.x w.y)
  | _ => none

/-- Family 0xE (R79), by the low byte. -/
def decodeFamilyE (w : Word) : Option Instr :=
  match w.nn with
  | 0x9E#8 => some (.skp w.x)
  | 0xA1#8 => some (.sknp w.x)
  | _ => none

/-- Family 0xF (R79), by the low byte; `F002` matches all 16 bits, so `FX02` with `X != 0` is no instruction, and
`F000` is the two-word form, which `decode` reads. -/
def decodeFamilyF (w : Word) : Option Instr :=
  match w.nn with
  | 0x01#8 => some (.plane w.x)
  | 0x02#8 => if w.x = 0x0#4 then some .audio else none
  | 0x07#8 => some (.ldVxDT w.x)
  | 0x0A#8 => some (.ldVxK w.x)
  | 0x15#8 => some (.ldDTVx w.x)
  | 0x18#8 => some (.ldSTVx w.x)
  | 0x1E#8 => some (.addIVx w.x)
  | 0x29#8 => some (.ldFVx w.x)
  | 0x30#8 => some (.ldHFVx w.x)
  | 0x33#8 => some (.ldBVx w.x)
  | 0x55#8 => some (.ldMemVx w.x)
  | 0x65#8 => some (.ldVxMem w.x)
  | 0x75#8 => some (.ldRVx w.x)
  | 0x85#8 => some (.ldVxR w.x)
  | _ => none

/-- The one-word instruction that a word encodes (R74): by the top nibble, then within the family. The last arm is
family 0xF. -/
def decodeWord (w : Word) : Option Instr :=
  match w.family with
  | 0x0#4 => decodeFamily0 w
  | 0x1#4 => some (.jp w.nnn)
  | 0x2#4 => some (.call w.nnn)
  | 0x3#4 => some (.seVxNN w.x w.nn)
  | 0x4#4 => some (.sneVxNN w.x w.nn)
  | 0x5#4 => decodeFamily5 w
  | 0x6#4 => some (.ldVxNN w.x w.nn)
  | 0x7#4 => some (.addVxNN w.x w.nn)
  | 0x8#4 => decodeFamily8 w
  | 0x9#4 => some (.sneVxVy w.x w.y w.n)
  | 0xA#4 => some (.ldINNN w.nnn)
  | 0xB#4 => some (.jpV0 w.nnn)
  | 0xC#4 => some (.rnd w.x w.nn)
  | 0xD#4 => some (.drw w.x w.y w.n.toNat)
  | 0xE#4 => decodeFamilyE w
  | _ => decodeFamilyF w

/-! ## The decoder over bytes -/

/-- Why bytes are not an instruction. -/
inductive DecodeError where
  /-- Fewer bytes than the instruction has. A fetch always offers four, so no step meets it. -/
  | tooShort
  /-- A word that matches no row of the opcode table (R80). -/
  | unrecognized (w : Word)
deriving DecidableEq, Repr

/-- The first word of the two-word form, compared exactly (R70, R82). -/
def longWord : Word := 0xF000#16

/-- The instruction that the bytes begin with, and the bytes after it. Words are big-endian (20_memory.md R52); the
instruction is two words long if and only if its first word is exactly 0xF000 (R70). -/
def decode : List Byte → Except DecodeError (Instr × List Byte)
  | hi :: lo :: rest =>
    if hi ++ lo = longWord then
      match rest with
      | hi' :: lo' :: rest' => .ok (.ldILong (hi' ++ lo'), rest')
      | _ => .error .tooShort
    else
      match decodeWord (hi ++ lo) with
      | some i => .ok (i, rest)
      | none => .error (.unrecognized (hi ++ lo))
  | _ => .error .tooShort

/-! ## The encoder -/

/-- Format `NNN` (R71). -/
def wordNNN (family : Nibble) (nnn : BitVec 12) : Word := family ++ nnn

/-- Format `XNN` (R71). -/
def wordXNN (family x : Nibble) (nn : Byte) : Word := family ++ x ++ nn

/-- Formats `XYN` and `XYf` (R71). -/
def wordXYN (family x y n : Nibble) : Word := family ++ x ++ y ++ n

/-- The words of an instruction, the first word first (R71, R75 to R79). -/
def encode : Instr → List Word
  | .scd n => [wordXYN 0x0 0x0 0xC (BitVec.ofNat 4 n)]
  | .scu n => [wordXYN 0x0 0x0 0xD (BitVec.ofNat 4 n)]
  | .cls => [0x00E0#16]
  | .ret => [0x00EE#16]
  | .scr => [0x00FB#16]
  | .scl => [0x00FC#16]
  | .exit => [0x00FD#16]
  | .low => [0x00FE#16]
  | .high => [0x00FF#16]
  | .jp nnn => [wordNNN 0x1 nnn]
  | .call nnn => [wordNNN 0x2 nnn]
  | .seVxNN x nn => [wordXNN 0x3 x nn]
  | .sneVxNN x nn => [wordXNN 0x4 x nn]
  | .seVxVy x y => [wordXYN 0x5 x y 0x0]
  | .save x y => [wordXYN 0x5 x y 0x2]
  | .load x y => [wordXYN 0x5 x y 0x3]
  | .ldVxNN x nn => [wordXNN 0x6 x nn]
  | .addVxNN x nn => [wordXNN 0x7 x nn]
  | .ldVxVy x y => [wordXYN 0x8 x y 0x0]
  | .orVxVy x y => [wordXYN 0x8 x y 0x1]
  | .andVxVy x y => [wordXYN 0x8 x y 0x2]
  | .xorVxVy x y => [wordXYN 0x8 x y 0x3]
  | .addVxVy x y => [wordXYN 0x8 x y 0x4]
  | .subVxVy x y => [wordXYN 0x8 x y 0x5]
  | .shrVxVy x y => [wordXYN 0x8 x y 0x6]
  | .subnVxVy x y => [wordXYN 0x8 x y 0x7]
  | .shlVxVy x y => [wordXYN 0x8 x y 0xE]
  | .sneVxVy x y n => [wordXYN 0x9 x y n]
  | .ldINNN nnn => [wordNNN 0xA nnn]
  | .jpV0 nnn => [wordNNN 0xB nnn]
  | .rnd x nn => [wordXNN 0xC x nn]
  | .drw x y n => [wordXYN 0xD x y (BitVec.ofNat 4 n)]
  | .skp x => [wordXNN 0xE x 0x9E]
  | .sknp x => [wordXNN 0xE x 0xA1]
  | .ldILong nnnn => [longWord, nnnn]
  | .plane n => [wordXNN 0xF n 0x01]
  | .audio => [0xF002#16]
  | .ldVxDT x => [wordXNN 0xF x 0x07]
  | .ldVxK x => [wordXNN 0xF x 0x0A]
  | .ldDTVx x => [wordXNN 0xF x 0x15]
  | .ldSTVx x => [wordXNN 0xF x 0x18]
  | .addIVx x => [wordXNN 0xF x 0x1E]
  | .ldFVx x => [wordXNN 0xF x 0x29]
  | .ldHFVx x => [wordXNN 0xF x 0x30]
  | .ldBVx x => [wordXNN 0xF x 0x33]
  | .ldMemVx x => [wordXNN 0xF x 0x55]
  | .ldVxMem x => [wordXNN 0xF x 0x65]
  | .ldRVx x => [wordXNN 0xF x 0x75]
  | .ldVxR x => [wordXNN 0xF x 0x85]

/-- A word's two bytes as they lie in memory, the more significant at the lower address (20_memory.md R52). -/
def wordBytes (w : Word) : List Byte := [w.extractLsb' 8 8, w.extractLsb' 0 8]

/-- An instruction's bytes as they lie in memory. -/
def encodeBytes (i : Instr) : List Byte := (encode i).flatMap wordBytes

/-! ## Words as the opcode table numbers them -/

/-- The first and the second word of `w`, an instruction of `nbits` bits (log 7). Up to 16 bits the first word is bits
15..0 and a second word lies above it. The table's one longer row, `F000 NNNN`, has its match and mask over
word1 ## word2, the first word in the UPPER half; an upper half of 0xF000 is read so, any other in the general
numbering. -/
def tableWords (nbits w : Nat) : Word × Word :=
  let low := BitVec.ofNat 16 w
  let high := BitVec.ofNat 16 (w / 65536)
  if 16 < nbits ∧ high = longWord then (high, low) else (low, high)

/-- The four bytes of the two words, in memory order. -/
def tableBytes (nbits w : Nat) : List Byte :=
  wordBytes (tableWords nbits w).1 ++ wordBytes (tableWords nbits w).2

/-- The instruction that the decoder reads from the bits `w` of a row of `nbits` bits. -/
def decodeTableWord (nbits w : Nat) : Option Instr :=
  match decode (tableBytes nbits w) with
  | .ok (i, _) => some i
  | .error _ => none

end Sys2Proof
end

