-- ==== Sys2Proof/Config.lean ====
section
/-! DEFINITION. What is fixed for a run but not by the spec: the four quirk booleans (00_scope.md R5, R6, 10_state.md R41)
and the free values. A constant here that has no body can be evaluated by nothing and no value of it can be proved. -/

namespace Sys2Proof

/-- The quirk record (10_state.md R41): four booleans that the host sets before the first `Cycle`. -/
structure Quirks where
  /-- 1: `8XY6` and `8XYE` shift the value of `V[Y]`; 0: the value of `V[X]`. -/
  shiftUsesVy : Bool
  /-- 1: `FX55` and `FX65` add `X + 1` to `I`; 0: they leave `I` unchanged. -/
  loadStoreIncrementsI : Bool
  /-- 1: `00FE` and `00FF` clear both planes; 0: they leave the planes unchanged. -/
  clearOnResolutionChange : Bool
  /-- 1: sprite pixels beyond an edge wrap to the opposite edge; 0: they are not drawn. -/
  spritesWrap : Bool
deriving DecidableEq, Repr, Inhabited

namespace Config

/-- FREE VALUE, log 3. The quirks the host has set when the machine comes out of reset: the spec names no default
(R6, D21). -/
opaque quirks : Quirks

/-- FREE VALUE, log 4. The random byte of the `k`-th executed `CXNN` since reset: a draw under no law
(40_alu.md R112, D20). -/
opaque rnd : Nat → Byte

/-- FREE VALUE, log 1. MEM_INIT: what a byte of memory outside the font region holds while nothing has written it
since power-on (70_reset_and_hazards.md R230, D28). -/
opaque memInit : Nat → Byte

/-- FREE VALUE, log 2. FLAGS_INIT: what `userFlags[k]` holds while nothing has written it since power-on
(10_state.md R35, R230). -/
opaque flagsInit : Nat → Byte

/-- FREE VALUE, log 2. AUDIO_INIT: what `audioBuffer[k]` holds while nothing has written it since power-on
(10_state.md R36, R230). -/
opaque audioInit : Nat → Byte

end Config

end Sys2Proof
end

