-- ==== Sys2Proof/Machine/State.lean ====
section
/-! DEFINITION. The architectural state (10_state.md R20 to R44), its value after reset, and the reasons a step could stop. -/

namespace Sys2Proof.Machine

/-- One row of a bitplane: 128 pixels, bit `x` is column `x` (10_state.md R37, log 18). -/
abbrev PlaneRow := BitVec 128

/-- A bitplane: 64 rows, row 0 at the top (R37). -/
abbrev Plane := Vector PlaneRow 64

/-- Memory as the bytes that differ from what reset leaves: pairs of an address and a byte, addresses strictly rising.
`Memory.wf` (Machine/Memory.lean) states the canonical form; what an unlisted address reads as is `Memory.read`'s. -/
abbrev Memory := List Host.Cell

/-- The sticky stack-fault record (10_state.md R33, 60_exceptions.md R200, R202); the address is that of the faulting
instruction. -/
inductive FaultRecord where
  /-- No fault recorded. -/
  | none
  /-- A `2NNN` at `sp = 16`. -/
  | stackOverflow (addr : Addr)
  /-- A `00EE` at `sp = 0`. -/
  | stackUnderflow (addr : Addr)
deriving DecidableEq, Repr

/-- One record of the diagnostic channel: a word that is no instruction and the address it was fetched from
(44_timer_key_system.md R186). -/
structure DiagRecord where
  word : Word
  addr : Addr
deriving DecidableEq, Repr

/-- The machine's state: exactly the list of 10_state.md (R12, R44), and the model's own `draws` and `diag`. -/
structure State where
  /-- The general registers `V0..VF` (R20). -/
  V : Vector Byte 16
  /-- The index register (R25). -/
  I : Addr
  /-- The program counter (R24). -/
  pc : Addr
  /-- How many return addresses the stack holds, 0..16 (R26, log 13). -/
  sp : Nat
  /-- The return stack (R34). -/
  stack : Vector Addr 16
  /-- R27. -/
  delayTimer : Byte
  /-- R28. -/
  soundTimer : Byte
  /-- 1 = high resolution (R29). -/
  hiRes : Bool
  /-- Bit `p` selects plane `p` (R30). -/
  bitPlaneSelect : BitVec 2
  /-- The halt flag of `00FD` (R31). -/
  stopped : Bool
  /-- A `FX0A` waits for a key to be released (R32). -/
  waitingForKey : Bool
  /-- The register that will receive the key (R32). -/
  waitRegister : Reg
  /-- The sticky stack fault (R33). -/
  fault : FaultRecord
  /-- The persistent flag bytes (R35). -/
  userFlags : Vector Byte 8
  /-- The audio pattern (R36). -/
  audioBuffer : Vector Byte 16
  /-- The two bitplanes (R37). -/
  planes : Vector Plane 2
  /-- Bit `k` = key `k` is pressed (R38). -/
  keys : BitVec 16
  /-- Memory (R39). -/
  mem : Memory
  /-- The redraw signal (R40). -/
  redraw : Bool
  /-- The quirk record, which no instruction changes (R41, log 3). -/
  quirks : Quirks
  /-- THE MODEL'S OWN: how many random draws `CXNN` has taken (log 4). -/
  draws : Nat
  /-- THE MODEL'S OWN: what the diagnostic channel has put out, newest record first (log 6). -/
  diag : List DiagRecord
deriving DecidableEq, Repr

/-- Why a step would stop with a fault. NO STEP DOES, so there is no constructor: the one fault of this hardware, the
stack fault, is a state that the spec describes (`FaultRecord`, 60_exceptions.md R202) and a next state in this model
(log 10), and no memory access faults (20_memory.md R53, R59). -/
inductive Fault where
deriving DecidableEq, Repr

/-- Why an instruction would be refused. -/
inductive Refusal where
  /-- An instruction without a meaning, by its mnemonic; raised by an arm of `exec` that rejects its instruction by
  name. SAFE: the machine stops. No arm does so: every instruction has its meaning. -/
  | notModelled (mnemonic : String)
deriving DecidableEq, Repr

/-- The state right after the first `Reset` (10_state.md R43, 70_reset_and_hazards.md R231) that follows power-on.
`userFlags` and `audioBuffer` still hold what power-on left (log 2), `quirks` what the host set (log 3), and memory
lists nothing: the font region reads as the font and the rest as power-on left it (log 1). -/
def State.reset : State where
  V := Vector.replicate 16 0
  I := 0
  pc := 0x0200
  sp := 0
  stack := Vector.replicate 16 0
  delayTimer := 0
  soundTimer := 0
  hiRes := false
  bitPlaneSelect := 1
  stopped := false
  waitingForKey := false
  waitRegister := 0
  fault := .none
  userFlags := Vector.ofFn (fun k => Config.flagsInit k.val)
  audioBuffer := Vector.ofFn (fun k => Config.audioInit k.val)
  planes := Vector.replicate 2 (Vector.replicate 64 0)
  keys := 0
  mem := []
  redraw := true
  quirks := Config.quirks
  draws := 0
  diag := []

end Sys2Proof.Machine
end

