-- ==== Sys2Proof/Machine/Memory.lean ====
section
/-! DEFINITION. Memory as data: the canonical form, one byte read, one byte written (20_memory.md R50, R51). Addresses are
numbers below 65536; masking and wrapping are the callers'. -/

namespace Sys2Proof.Machine

/-- The size of memory in bytes, MEMSIZE (00_scope.md R5). -/
def memSize : Nat := 65536

/-- The canonical form: addresses strictly rising and inside memory, and no cell that repeats the glyph byte which its
address reads as when it is not listed. Above the font region an unlisted address has no known value (log 1), so no
cell there repeats one. -/
abbrev Memory.wf (m : Memory) : Prop :=
  m.Pairwise (fun c d => c.1 < d.1) ∧ ∀ c ∈ m, c.1 < memSize ∧ fontByte c.1 ≠ some c.2

/-- The listed byte at an address. -/
def Memory.listed : Memory → Nat → Option Byte
  | [], _ => none
  | (a', b) :: m, a => if a' = a then some b else Memory.listed m a

/-- The byte known to be at an address: the one stored last, else the glyph byte of the font region, else nothing. -/
def Memory.known (m : Memory) (a : Nat) : Option Byte := (m.listed a).or (fontByte a)

/-- What a read returns. Where nothing is known it is the free value MEM_INIT (log 1, 10_state.md R39, D28). -/
def Memory.read (m : Memory) (a : Nat) : Byte := (m.known a).getD (Config.memInit a)

/-- List a byte at an address, in place of one listed there before. -/
def Memory.insert : Memory → Nat → Byte → Memory
  | [], a, b => [(a, b)]
  | (a', b') :: m, a, b =>
    if a < a' then (a, b) :: (a', b') :: m
    else if a = a' then (a, b) :: m
    else (a', b') :: Memory.insert m a b

/-- List nothing at an address. -/
def Memory.forget (m : Memory) (a : Nat) : Memory := m.filter (fun c => c.1 != a)

/-- Store a byte; storing the glyph byte that the address reads as anyway removes its cell. -/
def Memory.write (m : Memory) (a : Nat) (b : Byte) : Memory :=
  if fontByte a = some b then m.forget a else m.insert a b

/-- The font region as `Reset` leaves it, the rest as it was (70_reset_and_hazards.md R231). -/
def Memory.reloadFonts (m : Memory) : Memory := m.filter (fun c => fontEnd ≤ c.1)

end Sys2Proof.Machine
end

