-- ==== Sys2Proof/Machine/Ops.lean ====
section
/-! DEFINITION. The named operations over the state: the registers, memory, the stack, the planes, the signals; fetching;
taking a stack fault; an unrecognized word. Nothing else in the model writes a field of the state. -/

namespace Sys2Proof.Machine

/-! ## Registers (10_state.md section 1 to 4) -/

/-- `V[r]` (R20). -/
def State.readV (s : State) (r : Reg) : Byte := s.V[r.toNat]

/-- `V[r] <- b` (R20). -/
def State.writeV (s : State) (r : Reg) (b : Byte) : State := { s with V := s.V.set r.toNat b }

/-- The number of `VF`, which doubles as the flag register (R22). -/
def regF : Reg := 0xF#4

/-- `I <- a` (R25). -/
def State.setI (s : State) (a : Addr) : State := { s with I := a }

/-- `pc <- a` (R24). -/
def State.setPc (s : State) (a : Addr) : State := { s with pc := a }

def State.setDelayTimer (s : State) (b : Byte) : State := { s with delayTimer := b }

def State.setSoundTimer (s : State) (b : Byte) : State := { s with soundTimer := b }

def State.setHiRes (s : State) (h : Bool) : State := { s with hiRes := h }

def State.setPlaneSelect (s : State) (m : BitVec 2) : State := { s with bitPlaneSelect := m }

/-- `stopped <- 1` (R31). -/
def State.stop (s : State) : State := { s with stopped := true }

/-- `waitingForKey <- 1; waitRegister <- r` (R32). -/
def State.armWait (s : State) (r : Reg) : State := { s with waitingForKey := true, waitRegister := r }

def State.setFault (s : State) (f : FaultRecord) : State := { s with fault := f }

/-- `userFlags[k] <- b` (R35); an index past the array, which no rule produces, stores nothing. -/
def State.writeFlag (s : State) (k : Nat) (b : Byte) : State :=
  { s with userFlags := s.userFlags.setIfInBounds k b }

/-- `userFlags[k]` (R35), for `k` in 0..7. -/
def State.readFlag (s : State) (k : Nat) : Byte := s.userFlags[k]?.getD 0

def State.setAudio (s : State) (a : Vector Byte 16) : State := { s with audioBuffer := a }

def State.setKeys (s : State) (k : BitVec 16) : State := { s with keys := k }

def State.setQuirks (s : State) (q : Quirks) : State := { s with quirks := q }

/-- `redraw <- 1` (R40). -/
def State.markRedraw (s : State) : State := { s with redraw := true }

/-- `redraw <- 0` (R40). -/
def State.clearRedraw (s : State) : State := { s with redraw := false }

/-- The next random byte (40_alu.md R112): a free value, a fresh one at each draw (log 4). -/
def State.drawnByte (s : State) : Byte := Config.rnd s.draws

/-- Count a random draw as taken (log 4). -/
def State.countDraw (s : State) : State := { s with draws := s.draws + 1 }

/-! ## Memory (20_memory.md) -/

/-- `MemRead(a, 1)`: the full 16-bit address (R51, R56). -/
def State.readByte (s : State) (a : Addr) : Byte := s.mem.read a.toNat

/-- `MemWrite(a, 1, b)` (R51, R56). -/
def State.writeByte (s : State) (a : Addr) (b : Byte) : State := { s with mem := s.mem.write a.toNat b }

/-- `MemRead(a, 2)`, big-endian, the second address mod 65536 (R52, D3). -/
def State.readWord (s : State) (a : Addr) : Word := s.readByte a ++ s.readByte (a + 1)

/-- Store bytes at rising addresses. -/
def State.writeBytes : State → Addr → List Byte → State
  | s, _, [] => s
  | s, a, b :: bs => State.writeBytes (s.writeByte a b) (a + 1) bs

/-- Reload the font region (70_reset_and_hazards.md R231). -/
def State.reloadFonts (s : State) : State := { s with mem := s.mem.reloadFonts }

/-! ## Fetching (60_exceptions.md R206) -/

/-- A cycle changes nothing: `stopped = 1`, or a fault is recorded. -/
def State.halted (s : State) : Bool := s.stopped || s.fault != .none

/-- The four bytes from `pc` on: the longest instruction (R70); reading has no side effect (R50). -/
def State.fetchBytes (s : State) : List Byte :=
  [s.readByte s.pc, s.readByte (s.pc + 1), s.readByte (s.pc + 2), s.readByte (s.pc + 3)]

/-- `pc <- pc + 2`, the fetch's advance; an instruction executes in the state after it. -/
def State.advance (s : State) : State := s.setPc (s.pc + 2)

/-- The address of the executing instruction, `pc - 2` after the fetch's advance (42_control_flow.md, preamble). -/
def State.instrAddr (s : State) : Addr := s.pc - 2

/-- `pc <- pc - 2`, back to the executing instruction (44_timer_key_system.md R183, R185). -/
def State.rewind (s : State) : State := s.setPc s.instrAddr

/-- One record on the diagnostic channel (44_timer_key_system.md R186); no state of the spec's changes (log 6). -/
def State.emitDiag (s : State) (w : Word) (a : Addr) : State := { s with diag := ⟨w, a⟩ :: s.diag }

/-- An unrecognized word, in the state after the fetch's advance (R186). -/
def State.unrecognized (s : State) (w : Word) : State := s.emitDiag w s.instrAddr

/-! ## The stack fault (60_exceptions.md R202) and the return stack (10_state.md R26, R34) -/

/-- Taking a stack fault, in the state after the fetch's advance: `pc` back at the faulting instruction, the record
made, nothing else written. There is no return from it but `Reset` (R214, R215). -/
def State.takeStackFault (s : State) (record : Addr → FaultRecord) : State :=
  s.rewind.setFault (record s.instrAddr)

/-- How many return addresses the stack can hold, STACKDEPTH (00_scope.md R5). -/
def stackDepth : Nat := 16

/-- `stack[sp] <- a; sp <- sp + 1`, for `sp < 16` (42_control_flow.md R142). -/
def State.push (s : State) (a : Addr) : State :=
  { s with stack := s.stack.setIfInBounds s.sp a, sp := s.sp + 1 }

/-- `stack[sp - 1]`, for `1 <= sp <= 16` (R143; log 13). -/
def State.stackTop (s : State) : Addr := s.stack[s.sp - 1]?.getD 0

/-- `sp <- sp - 1`; the slot keeps its value (R143). -/
def State.pop (s : State) : State := { s with sp := s.sp - 1 }

/-! ## The planes (43_graphics.md R160) -/

/-- `plane[p]`. -/
def State.plane (s : State) (p : Fin 2) : Plane := s.planes[p]

/-- `plane[p][y][x]`, 1 = set. -/
def State.pixel (s : State) (p : Fin 2) (y : Fin 64) (x : Fin 128) : Bool := (s.plane p)[y].getLsbD x.val

/-- `bitPlaneSelect[p] = 1`. -/
def State.selected (s : State) (p : Fin 2) : Bool := s.bitPlaneSelect.getLsbD p.val

def State.setPlanes (s : State) (ps : Vector Plane 2) : State := { s with planes := ps }

/-- A plane with every pixel 0. -/
def Plane.blank : Plane := Vector.replicate 64 0

/-- Change the selected planes, each by itself (R161 to R166). -/
def State.mapSelected (s : State) (f : Plane → Plane) : State :=
  s.setPlanes (Vector.ofFn fun p => if s.selected p then f (s.plane p) else s.plane p)

end Sys2Proof.Machine
end

