-- ==== Sys2Proof/Machine/Flags.lean ====
section
/-! DEFINITION. The flag values (10_state.md R22, R23; 40_alu.md R100, R107 to R111): each is 0x00 or 0x01, computed from
the full-width operands, and written to `VF` after the result. -/

namespace Sys2Proof.Machine

/-- A flag as the byte written to `VF` (R22). -/
def flagByte (c : Bool) : Byte := if c then 0x01 else 0x00

/-- Carry out of bit 7: `a + b > 255` (R107). -/
def carryOut (a b : Byte) : Bool := 255 < a.toNat + b.toNat

/-- `a - b` needs no borrow: `a >= b` (R108, R110). -/
def notBorrow (a b : Byte) : Bool := b.toNat ≤ a.toNat

/-- The bit that a right shift puts out (R109). -/
def shiftedOutRight (v : Byte) : Bool := v.getLsbD 0

/-- The bit that a left shift puts out (R111). -/
def shiftedOutLeft (v : Byte) : Bool := v.getLsbD 7

/-- `V[X] <- result`, then `V[0xF] <- flag`: the flag is the last write, so with `X = 0xF` the result is lost
(R22, R23). -/
def State.writeResultAndFlag (s : State) (x : Reg) (result : Byte) (flag : Bool) : State :=
  (s.writeV x result).writeV regF (flagByte flag)

end Sys2Proof.Machine
end

