-- ==== Sys2Proof/Machine/Operands.lean ====
section
/-! DEFINITION. The operand forms (30_encoding.md R73, 41_memory_ops.md R133): the masked accesses, the register ranges of
the block transfers, the digit and key in a register's low nibble, the source of a shift, the skip. -/

namespace Sys2Proof.Machine

/-! ## Masked accesses (20_memory.md R55) -/

/-- `a mod 4096` (AMASK, 00_scope.md R5). -/
def mask12 (a : Addr) : Addr := a &&& 0x0FFF#16

/-- `MemRead12(a)`. -/
def State.readByte12 (s : State) (a : Addr) : Byte := s.readByte (mask12 a)

/-- `MemWrite12(a, b)`. -/
def State.writeByte12 (s : State) (a : Addr) (b : Byte) : State := s.writeByte (mask12 a) b

/-! ## Register ranges and block transfers (41_memory_ops.md R126 to R131) -/

/-- `V0..VX`, ascending (R126, R127). -/
def regsUpTo (x : Reg) : List Reg := (List.range (x.toNat + 1)).map (BitVec.ofNat 4)

/-- `X..Y`, ascending if `Y >= X` and descending otherwise (R128, R129). -/
def regRange (x y : Reg) : List Reg :=
  if x.toNat ≤ y.toNat then (List.range (y.toNat - x.toNat + 1)).map (fun k => x + BitVec.ofNat 4 k)
  else (List.range (x.toNat - y.toNat + 1)).map (fun k => x - BitVec.ofNat 4 k)

/-- Store registers at rising masked addresses from `a` on. -/
def State.storeRegs : State → Addr → List Reg → State
  | s, _, [] => s
  | s, a, r :: rs => State.storeRegs (s.writeByte12 a (s.readV r)) (a + 1) rs

/-- Load registers from rising masked addresses from `a` on. -/
def State.loadRegs : State → Addr → List Reg → State
  | s, _, [] => s
  | s, a, r :: rs => State.loadRegs (s.writeV r (s.readByte12 a)) (a + 1) rs

/-- The increment of `I` after `FX55` and `FX65`, under the quirk (R126, R127). -/
def State.incrementI (s : State) (x : Reg) : State :=
  s.setI (if s.quirks.loadStoreIncrementsI then s.I + x.setWidth 16 + 1 else s.I)

/-- `0..min(X, 7)`: how `FX75` and `FX85` number the flag bytes and the registers (R130, R131, D11). -/
def flagIndices (x : Reg) : List Nat := List.range (min x.toNat 7 + 1)

/-- Save registers to the flag bytes of the same numbers. -/
def State.saveFlags : State → List Nat → State
  | s, [] => s
  | s, k :: ks => State.saveFlags (s.writeFlag k (s.readV (BitVec.ofNat 4 k))) ks

/-- Load registers from the flag bytes of the same numbers. -/
def State.loadFlags : State → List Nat → State
  | s, [] => s
  | s, k :: ks => State.loadFlags (s.writeV (BitVec.ofNat 4 k) (s.readFlag k)) ks

/-! ## Digits, keys, shifts -/

/-- `V[X][3:0]` (R123, R124, 42_control_flow.md R150, R151, D10). -/
def State.lowNibble (s : State) (x : Reg) : Nibble := (s.readV x).extractLsb' 0 4

/-- `keys[V[X][3:0]] = 1` (42_control_flow.md R150). -/
def State.keyPressed (s : State) (x : Reg) : Bool := s.keys.getLsbD (s.lowNibble x).toNat

/-- The operand of a shift: `V[Y]` if `quirks.shiftUsesVy`, else `V[X]` (40_alu.md R109, R111, C1). -/
def State.shiftSource (s : State) (x y : Reg) : Byte :=
  if s.quirks.shiftUsesVy then s.readV y else s.readV x

/-! ## Skips (42_control_flow.md R145) -/

/-- How far `Skip()` moves `pc`: 4 over the two-word form, else 2; the word after the skip is peeked at, unmasked. -/
def State.skipWidth (s : State) : Addr := if s.readWord s.pc = longWord then 4 else 2

/-- `if c: Skip()`. -/
def State.skipIf (s : State) (c : Bool) : State := s.setPc (if c then s.pc + s.skipWidth else s.pc)

end Sys2Proof.Machine
end

