-- ==== Sys2Proof/Machine/Alu.lean ====
section
/-! DEFINITION. The meanings of 40_alu.md: `6XNN`, `7XNN`, `8XY0` to `8XY7`, `8XYE`, `CXNN`. A meaning is given the state
after the fetch's advance of `pc` (60_exceptions.md R206). -/

namespace Sys2Proof.Machine

/-- How every instruction of this hardware ends: with a next state (00_scope.md R13). -/
abbrev Result := Host.Outcome State Fault Refusal

/-- `6XNN` (R101). -/
def execLdVxNN (x : Reg) (nn : Byte) (s : State) : Result := .next (s.writeV x nn)

/-- `7XNN`: no flag (R102, D12). -/
def execAddVxNN (x : Reg) (nn : Byte) (s : State) : Result := .next (s.writeV x (s.readV x + nn))

/-- `8XY0` (R103). -/
def execLdVxVy (x y : Reg) (s : State) : Result := .next (s.writeV x (s.readV y))

/-- `8XY1`: `VF` is left alone (R104, D12). -/
def execOrVxVy (x y : Reg) (s : State) : Result := .next (s.writeV x (s.readV x ||| s.readV y))

/-- `8XY2` (R105). -/
def execAndVxVy (x y : Reg) (s : State) : Result := .next (s.writeV x (s.readV x &&& s.readV y))

/-- `8XY3` (R106). -/
def execXorVxVy (x y : Reg) (s : State) : Result := .next (s.writeV x (s.readV x ^^^ s.readV y))

/-- `8XY4` (R107). -/
def execAddVxVy (x y : Reg) (s : State) : Result :=
  .next (s.writeResultAndFlag x (s.readV x + s.readV y) (carryOut (s.readV x) (s.readV y)))

/-- `8XY5` (R108). -/
def execSubVxVy (x y : Reg) (s : State) : Result :=
  .next (s.writeResultAndFlag x (s.readV x - s.readV y) (notBorrow (s.readV x) (s.readV y)))

/-- `8XY6` (R109). -/
def execShrVxVy (x y : Reg) (s : State) : Result :=
  .next (s.writeResultAndFlag x (s.shiftSource x y >>> 1) (shiftedOutRight (s.shiftSource x y)))

/-- `8XY7` (R110). -/
def execSubnVxVy (x y : Reg) (s : State) : Result :=
  .next (s.writeResultAndFlag x (s.readV y - s.readV x) (notBorrow (s.readV y) (s.readV x)))

/-- `8XYE` (R111). -/
def execShlVxVy (x y : Reg) (s : State) : Result :=
  .next (s.writeResultAndFlag x (s.shiftSource x y <<< 1) (shiftedOutLeft (s.shiftSource x y)))

/-- `CXNN`: the drawn byte is a free value (R112, log 4). -/
def execRnd (x : Reg) (nn : Byte) (s : State) : Result :=
  .next (s.countDraw.writeV x (s.drawnByte &&& nn))

end Sys2Proof.Machine
end

