-- ==== Sys2Proof/Machine/Control.lean ====
section
/-! DEFINITION. The meanings of 42_control_flow.md: `1NNN`, `2NNN`, `00EE`, `BNNN` and the six skips. `pc` is already past
the instruction's word (60_exceptions.md R206). -/

namespace Sys2Proof.Machine

/-- `1NNN` (R141). -/
def execJp (nnn : BitVec 12) (s : State) : Result := .next (s.setPc (nnn.setWidth 16))

/-- `2NNN`: a stack fault when the stack is full (R142). -/
def execCall (nnn : BitVec 12) (s : State) : Result :=
  .next (if stackDepth ≤ s.sp then s.takeStackFault .stackOverflow else (s.push s.pc).setPc (nnn.setWidth 16))

/-- `00EE`: a stack fault when the stack is empty (R143). -/
def execRet (s : State) : Result :=
  .next (if s.sp = 0 then s.takeStackFault .stackUnderflow else s.pop.setPc s.stackTop)

/-- `BNNN`: `V0` always, the sum mod 4096 (R144, D6). -/
def execJpV0 (nnn : BitVec 12) (s : State) : Result :=
  .next (s.setPc (mask12 (nnn.setWidth 16 + (s.readV 0x0).setWidth 16)))

/-- `3XNN` (R146). -/
def execSeVxNN (x : Reg) (nn : Byte) (s : State) : Result := .next (s.skipIf (s.readV x == nn))

/-- `4XNN` (R147). -/
def execSneVxNN (x : Reg) (nn : Byte) (s : State) : Result := .next (s.skipIf (s.readV x != nn))

/-- `5XY0` (R148). -/
def execSeVxVy (x y : Reg) (s : State) : Result := .next (s.skipIf (s.readV x == s.readV y))

/-- `9XYN`: the field `N` is not examined (R149). -/
def execSneVxVy (x y : Reg) (s : State) : Result := .next (s.skipIf (s.readV x != s.readV y))

/-- `EX9E` (R150). -/
def execSkp (x : Reg) (s : State) : Result := .next (s.skipIf (s.keyPressed x))

/-- `EXA1` (R151). -/
def execSknp (x : Reg) (s : State) : Result := .next (s.skipIf (!s.keyPressed x))

end Sys2Proof.Machine
end

