-- ==== Sys2Proof/Machine/Graphics.lean ====
section
/-! DEFINITION. The meanings of 43_graphics.md: `00E0`, the scrolls, `00FE`, `00FF`, `FN01` and the sprite draw `DXYN`. -/

namespace Sys2Proof.Machine

/-! ## Clear and scroll (R161 to R166) -/

/-- `00E0` (R161). -/
def execCls (s : State) : Result := .next (s.mapSelected (fun _ => Plane.blank)).markRedraw

/-- `ScrollDown`: row `y` becomes old row `y - n` (R162). -/
def Plane.scrollDown (n : Nat) (old : Plane) : Plane :=
  Vector.ofFn fun y => if n ≤ y.val then old[y.val - n]?.getD 0 else 0

/-- `ScrollUp`: row `y` becomes old row `y + n` (R162). -/
def Plane.scrollUp (n : Nat) (old : Plane) : Plane := Vector.ofFn fun y => old[y.val + n]?.getD 0

/-- `ScrollRight`: column `x` becomes old column `x - n`; a row's bit `x` is its column `x` (R162). -/
def Plane.scrollRight (n : Nat) (old : Plane) : Plane := Vector.ofFn fun y => old[y] <<< n

/-- `ScrollLeft`: column `x` becomes old column `x + n` (R162). -/
def Plane.scrollLeft (n : Nat) (old : Plane) : Plane := Vector.ofFn fun y => old[y] >>> n

/-- `00CN` (R163). -/
def execScd (n : Nat) (s : State) : Result := .next (s.mapSelected (Plane.scrollDown n)).markRedraw

/-- `00DN` (R164). -/
def execScu (n : Nat) (s : State) : Result := .next (s.mapSelected (Plane.scrollUp n)).markRedraw

/-- How far `00FB` and `00FC` scroll, in plane pixels (R165, R166, D15). -/
def scrollDistance : Nat := 4

/-- `00FB` (R165). -/
def execScr (s : State) : Result := .next (s.mapSelected (Plane.scrollRight scrollDistance)).markRedraw

/-- `00FC` (R166). -/
def execScl (s : State) : Result := .next (s.mapSelected (Plane.scrollLeft scrollDistance)).markRedraw

/-! ## Resolution and plane select (R167 to R169) -/

/-- Switch the resolution; both planes are cleared under the quirk, selected or not (R167, R168). -/
def State.switchResolution (s : State) (high : Bool) : State :=
  ((s.setHiRes high).setPlanes
    (if s.quirks.clearOnResolutionChange then Vector.replicate 2 Plane.blank else s.planes)).markRedraw

/-- `00FE` (R167). -/
def execLow (s : State) : Result := .next (s.switchResolution false)

/-- `00FF` (R168). -/
def execHigh (s : State) : Result := .next (s.switchResolution true)

/-- `FN01`: the two low bits of the immediate (R169, D26). -/
def execPlane (n : Nibble) (s : State) : Result := .next (s.setPlaneSelect (n.extractLsb' 0 2))

/-! ## Sprite draw (R170 to R174) -/

/-- One plane pixel. -/
structure PixelAt where
  p : Fin 2
  y : Fin 64
  x : Fin 128
deriving DecidableEq, Repr

/-- The pixel factor: 1 in high resolution, 2 in low (R160). -/
def State.pixelFactor (s : State) : Nat := if s.hiRes then 1 else 2

/-- The selected planes, plane 0 first (R170). -/
def State.selectedPlanes (s : State) : List (Fin 2) := [0, 1].filter s.selected

/-- Rows of the sprite: 16 for `N = 0`, else `N` (R170, R171). -/
def spriteRows (n : Nat) : Nat := if n = 0 then 16 else n

/-- Bytes of one sprite row: 2 for `N = 0`, else 1 (R170, R171). -/
def spriteRowBytes (n : Nat) : Nat := if n = 0 then 2 else 1

/-- Bytes that one selected plane consumes (R171). -/
def spriteBytes (n : Nat) : Nat := spriteRows n * spriteRowBytes n

/-- The source byte `b` of row `r` for the `j`-th selected plane: the blocks of the selected planes follow each other
from `I` on, unmasked (R170, R171). -/
def State.spriteByte (s : State) (n j r b : Nat) : Byte :=
  s.readByte (s.I + BitVec.ofNat 16 (j * spriteBytes n + r * spriteRowBytes n + b))

/-- The plane pixel at a scaled coordinate: wrapped, or nothing where it is clipped (R172). -/
def placeScaled (wrap : Bool) (p : Fin 2) (px py : Nat) : List PixelAt :=
  if wrap then [⟨p, Fin.ofNat 64 py, Fin.ofNat 128 px⟩]
  else if px < 128 ∧ py < 64 then [⟨p, Fin.ofNat 64 py, Fin.ofNat 128 px⟩]
  else []

/-- The plane pixels of the logical pixel `(lx, ly)`: a block of `f` by `f`, scaled first (R160, R172). -/
def placePixel (wrap : Bool) (f : Nat) (p : Fin 2) (lx ly : Nat) : List PixelAt :=
  (List.range f).flatMap fun dy => (List.range f).flatMap fun dx =>
    placeScaled wrap p (lx * f + dx) (ly * f + dy)

/-- The plane pixels that one source byte places: its set bits, bit 7 the leftmost column (R170). -/
def placeByte (wrap : Bool) (f : Nat) (p : Fin 2) (byte : Byte) (lx ly : Nat) : List PixelAt :=
  (List.range 8).flatMap fun c => if byte.getLsbD (7 - c) then placePixel wrap f p (lx + c) ly else []

/-- The plane pixels that the block of the `j`-th selected plane places, in the order of R170. -/
def State.placeBlock (s : State) (x0 y0 n j : Nat) (p : Fin 2) : List PixelAt :=
  (List.range (spriteRows n)).flatMap fun r => (List.range (spriteRowBytes n)).flatMap fun b =>
    placeByte s.quirks.spritesWrap s.pixelFactor p (s.spriteByte n j r b) (x0 + 8 * b) (y0 + r)

/-- Every plane pixel that the draw places, in the order of R170. -/
def State.spritePixels (s : State) (x0 y0 n : Nat) : List PixelAt :=
  s.selectedPlanes.zipIdx.flatMap fun pj => s.placeBlock x0 y0 n pj.2 pj.1

/-- `plane[p][y][x]` of a pair of planes. -/
def pixelOf (ps : Vector Plane 2) (q : PixelAt) : Bool := ps[q.p][q.y].getLsbD q.x.val

/-- `plane[p][y][x] <- plane[p][y][x] xor 1` (R172). -/
def togglePixel (ps : Vector Plane 2) (q : PixelAt) : Vector Plane 2 :=
  ps.set q.p (ps[q.p].set q.y (ps[q.p][q.y] ^^^ (1#128 <<< q.x.val)))

/-- Toggle the placed pixels one after another; a pixel that was set before its toggle is a hit (R172, R173). -/
def blit : List PixelAt → Vector Plane 2 → Bool → Vector Plane 2 × Bool
  | [], ps, hit => (ps, hit)
  | q :: qs, ps, hit => blit qs (togglePixel ps q) (hit || pixelOf ps q)

/-- `DXYN`: the origin is read before `VF` is written, and the collision flag is the last write (R170, R173, R174). -/
def execDrw (x y : Reg) (n : Nat) (s : State) : Result :=
  let r := blit (s.spritePixels (s.readV x).toNat (s.readV y).toNat n) s.planes false
  .next ((s.setPlanes r.1).markRedraw.writeV regF (flagByte r.2))

end Sys2Proof.Machine
end

