-- ==== Sys2Proof/Machine/IndexMemory.lean ====
section
/-! DEFINITION. The meanings of 41_memory_ops.md: `ANNN`, `F000 NNNN`, `FX1E`, `FX29`, `FX30`, `FX33`, `FX55`, `FX65`,
`5XY2`, `5XY3`, `FX75`, `FX85`, `F002`. -/

namespace Sys2Proof.Machine

/-- `ANNN` (R120). -/
def execLdINNN (nnn : BitVec 12) (s : State) : Result := .next (s.setI (nnn.setWidth 16))

/-- `F000 NNNN`: the operand is the second word, and `pc` moves past it (R121, log 12). -/
def execLdILong (nnnn : Word) (s : State) : Result := .next ((s.setI nnnn).setPc (s.pc + 2))

/-- `FX1E`: mod 65536, no mask and no flag (R122). -/
def execAddIVx (x : Reg) (s : State) : Result := .next (s.setI (s.I + (s.readV x).setWidth 16))

/-- `FX29` (R123). -/
def execLdFVx (x : Reg) (s : State) : Result := .next (s.setI (5 * (s.lowNibble x).setWidth 16))

/-- `FX30` (R124). -/
def execLdHFVx (x : Reg) (s : State) : Result := .next (s.setI (80 + 10 * (s.lowNibble x).setWidth 16))

/-- The decimal digit of a byte that stands for `unit` (100, 10 or 1) (R125). -/
def bcdDigit (v : Byte) (unit : Nat) : Byte := BitVec.ofNat 8 (v.toNat / unit % 10)

/-- `FX33`: hundreds at `I` itself, tens and ones at masked addresses (R125, C6). -/
def execLdBVx (x : Reg) (s : State) : Result :=
  .next (((s.writeByte s.I (bcdDigit (s.readV x) 100)).writeByte12 (s.I + 1) (bcdDigit (s.readV x) 10)).writeByte12
    (s.I + 2) (bcdDigit (s.readV x) 1))

/-- `FX55` (R126). -/
def execLdMemVx (x : Reg) (s : State) : Result := .next ((s.storeRegs s.I (regsUpTo x)).incrementI x)

/-- `FX65` (R127). -/
def execLdVxMem (x : Reg) (s : State) : Result := .next ((s.loadRegs s.I (regsUpTo x)).incrementI x)

/-- `5XY2`: `I` is unchanged under every quirk setting (R128, D5). -/
def execSave (x y : Reg) (s : State) : Result := .next (s.storeRegs s.I (regRange x y))

/-- `5XY3` (R129). -/
def execLoad (x y : Reg) (s : State) : Result := .next (s.loadRegs s.I (regRange x y))

/-- `FX75` (R130). -/
def execLdRVx (x : Reg) (s : State) : Result := .next (s.saveFlags (flagIndices x))

/-- `FX85` (R131). -/
def execLdVxR (x : Reg) (s : State) : Result := .next (s.loadFlags (flagIndices x))

/-- `F002`: sixteen bytes from `I`, unmasked (R132). -/
def execAudio (s : State) : Result :=
  .next (s.setAudio (Vector.ofFn fun k => s.readByte (s.I + BitVec.ofNat 16 k.val)))

end Sys2Proof.Machine
end

