-- ==== Sys2Proof/Machine/System.lean ====
section
/-! DEFINITION. The meanings of 44_timer_key_system.md: `FX07`, `FX15`, `FX18`, `FX0A`, `00FD`. -/

namespace Sys2Proof.Machine

/-- `FX07` (R180). -/
def execLdVxDT (x : Reg) (s : State) : Result := .next (s.writeV x s.delayTimer)

/-- `FX15` (R181). -/
def execLdDTVx (x : Reg) (s : State) : Result := .next (s.setDelayTimer (s.readV x))

/-- `FX18` (R182). -/
def execLdSTVx (x : Reg) (s : State) : Result := .next (s.setSoundTimer (s.readV x))

/-- `FX0A`: rewind and arm while no key is pressed, else nothing; the register is written by the `KeyUpdate` that sees
the release (R183, R184, C3). -/
def execLdVxK (x : Reg) (s : State) : Result := .next (if s.keys = 0 then s.rewind.armWait x else s)

/-- `00FD` (R185). -/
def execExit (s : State) : Result := .next s.stop.rewind

end Sys2Proof.Machine
end

