-- ==== Sys2Proof/Machine/Step.lean ====
section
/-! DEFINITION. One `Cycle` (60_exceptions.md R206), and the placing of an instruction where the next cycle fetches. -/

namespace Sys2Proof.Machine

/-- `Cycle`: nothing when stopped or faulted; else fetch, advance `pc` by 2, decode, and execute the instruction, or put
out one diagnostic record for a word that is none (R206, 44_timer_key_system.md R186). -/
def step (s : State) : Host.Outcome State Fault Refusal :=
  if s.halted then .next s
  else
    match decode s.fetchBytes with
    | .ok (i, _) => exec i s.advance
    | .error _ => .next (s.advance.unrecognized (s.readWord s.pc))

/-- The state with the instruction of the bits `w`, numbered as the opcode table numbers them, stored at `pc`, so that
the next step fetches and runs it (logs 7 and 8): its four bytes (the longest instruction) are stored, and `stopped`
and `fault`, which keep a cycle from fetching, are cleared. -/
def State.withFetchWord (s : State) (nbits w : Nat) : State :=
  { s.writeBytes s.pc (tableBytes nbits w) with stopped := false, fault := .none }

end Sys2Proof.Machine
end

