-- ==== Sys2Proof/Machine/Events.lean ====
section
/-! DEFINITION. The host's events (60_exceptions.md R205 to R213): each is atomic and acts whatever the execution state
(R213, D25). `Cycle` is `step`. -/

namespace Sys2Proof.Machine

/-- `Reset` (R205, 70_reset_and_hazards.md R231). Unchanged: memory above the font region, `userFlags`, `audioBuffer`,
`keys`, `quirks`; and the model's own `draws` and `diag`, which record what has been drawn and put out. -/
def State.resetEvent (s : State) : State :=
  { State.reset with
    userFlags := s.userFlags
    audioBuffer := s.audioBuffer
    keys := s.keys
    quirks := s.quirks
    mem := s.mem.reloadFonts
    draws := s.draws
    diag := s.diag }

/-- One count down, never below zero (R207). -/
def countDown (t : Byte) : Byte := if t = 0 then 0 else t - 1

/-- `Tick` (R207). -/
def State.tick (s : State) : State :=
  (s.setDelayTimer (countDown s.delayTimer)).setSoundTimer (countDown s.soundTimer)

/-- The lowest key that is pressed in `old` and not in `new` (R208, D14). -/
def releasedKey (old new : BitVec 16) : Option Nat :=
  (List.range 16).find? fun k => old.getLsbD k && !new.getLsbD k

/-- The wait-for-key commit: the key's index into the waiting register, and the wait ends (R208). -/
def State.commitKey (s : State) (k : Nat) : State :=
  { s.writeV s.waitRegister (BitVec.ofNat 8 k) with waitingForKey := false }

/-- `KeyUpdate(new)` (R208): a release while a `FX0A` waits is committed; then the new vector holds. -/
def State.keyUpdate (s : State) (new : BitVec 16) : State :=
  if s.waitingForKey then
    match releasedKey s.keys new with
    | some k => (s.commitKey k).setKeys new
    | none => s.setKeys new
  else s.setKeys new

/-- `HostWrite(a, b)` (R209, D29). -/
def State.hostWrite (s : State) (a : Addr) (b : Byte) : State := s.writeByte a b

/-- `AckRedraw` (R211). -/
def State.ackRedraw (s : State) : State := s.clearRedraw

/-- What `HostRead` lets the host observe (R210). -/
structure HostView where
  memory : Memory
  V : Vector Byte 16
  I : Addr
  pc : Addr
  sp : Nat
  stack : Vector Addr 16
  delayTimer : Byte
  soundTimer : Byte
  planes : Vector Plane 2
  audioBuffer : Vector Byte 16
  hiRes : Bool
  stopped : Bool
  redraw : Bool
  fault : FaultRecord
deriving DecidableEq, Repr

/-- `HostRead` (R210): an observation; it changes no state. -/
def State.hostRead (s : State) : HostView :=
  { memory := s.mem, V := s.V, I := s.I, pc := s.pc, sp := s.sp, stack := s.stack, delayTimer := s.delayTimer,
    soundTimer := s.soundTimer, planes := s.planes, audioBuffer := s.audioBuffer, hiRes := s.hiRes,
    stopped := s.stopped, redraw := s.redraw, fault := s.fault }

/-- The colour index that the host composes for a pixel, `2*plane1 + plane0` (10_state.md R37). -/
def State.colourIndex (s : State) (y : Fin 64) (x : Fin 128) : Nat :=
  2 * (s.pixel 1 y x).toNat + (s.pixel 0 y x).toNat

/-- The events of the interface (00_scope.md R10). -/
inductive Event where
  | reset
  | cycle
  | tick
  | keyUpdate (new : BitVec 16)
  | hostWrite (a : Addr) (b : Byte)
  | hostRead
  | ackRedraw
  | setQuirks (q : Quirks)
deriving DecidableEq, Repr

/-- What one event does to the state (R205 to R212). -/
def State.handle (s : State) : Event → Host.Outcome State Fault Refusal
  | .reset => .next s.resetEvent
  | .cycle => step s
  | .tick => .next s.tick
  | .keyUpdate new => .next (s.keyUpdate new)
  | .hostWrite a b => .next (s.hostWrite a b)
  | .hostRead => .next s
  | .ackRedraw => .next s.ackRedraw
  | .setQuirks q => .next (s.setQuirks q)

/-- A run: events in their total order (R213). -/
def State.runEvents (s : State) : List Event → Host.Outcome State Fault Refusal
  | [] => .next s
  | e :: es =>
    match s.handle e with
    | .next t => t.runEvents es
    | .fault f => .fault f
    | .refused r => .refused r

/-- Which events have a move once a `Cycle` has happened: all but `SetQuirks` (R212, U16). -/
def allowedOnceRunning : Event → Bool
  | .setQuirks _ => false
  | .reset => true
  | .cycle => true
  | .tick => true
  | .keyUpdate _ => true
  | .hostWrite _ _ => true
  | .hostRead => true
  | .ackRedraw => true

/-- The runs that the spec admits: nothing that is not allowed after the first `Cycle` (R212). -/
def admissible : List Event → Bool
  | [] => true
  | .cycle :: es => es.all allowedOnceRunning
  | _ :: es => admissible es

end Sys2Proof.Machine
end

