-- ==== Sys2Proof/Safety.lean ====
section
/-! DEFINITION. What the claims count as a legal state, a halted state and a clean step. -/

namespace Sys2Proof.Machine

/-- The invariant of the machine: memory is in its canonical form; `sp` never exceeds 16 (10_state.md R26); and a
recorded stack fault is precise (60_exceptions.md R202): `pc` is at the recorded instruction, and the stack is full for
an overflow and empty for an underflow. -/
def State.Inv (s : State) : Prop :=
  s.mem.wf ∧ s.sp ≤ stackDepth ∧
  (∀ a, s.fault = .stackOverflow a → s.pc = a ∧ s.sp = stackDepth) ∧
  (∀ a, s.fault = .stackUnderflow a → s.pc = a ∧ s.sp = 0)

/-- The execution state `faulted` (44_timer_key_system.md R187). -/
def State.Faulted (s : State) : Prop := s.fault ≠ .none

/-- A cycle is clean: it records no stack fault and puts out no diagnostic record (60_exceptions.md R201, R202). -/
def CleanStep (s : State) : Prop := ∃ t, step s = .next t ∧ t.fault = .none ∧ t.diag = s.diag

end Sys2Proof.Machine
end

