-- ==== Sys2Proof/Certificates/Slice0/Obligations.lean ====
section
/-! DEFINITION. The statements for the provers, made from the spec's numbered rules. A meaning is given the state after the
fetch's advance of pc (60_exceptions.md R206), so "pc kept" below means: at the word after the instruction. -/

namespace Sys2Proof.Claims

open Sys2Proof.Machine

/-! ## Frames -/

/-- The pieces of state of 10_state.md, and the model's own two. -/
inductive Piece where
  | V | I | pc | sp | stack | delayTimer | soundTimer | hiRes | bitPlaneSelect | stopped | waitingForKey | waitRegister
  | fault | userFlags | audioBuffer | planes | keys | memory | redraw | quirks | draws | diag
deriving DecidableEq, Repr

/-- A piece of state is the same in both states: every register, every byte of memory, every pixel. -/
def Kept (s t : State) : Piece → Prop
  | .V => ∀ r, t.readV r = s.readV r
  | .I => t.I = s.I
  | .pc => t.pc = s.pc
  | .sp => t.sp = s.sp
  | .stack => t.stack = s.stack
  | .delayTimer => t.delayTimer = s.delayTimer
  | .soundTimer => t.soundTimer = s.soundTimer
  | .hiRes => t.hiRes = s.hiRes
  | .bitPlaneSelect => t.bitPlaneSelect = s.bitPlaneSelect
  | .stopped => t.stopped = s.stopped
  | .waitingForKey => t.waitingForKey = s.waitingForKey
  | .waitRegister => t.waitRegister = s.waitRegister
  | .fault => t.fault = s.fault
  | .userFlags => t.userFlags = s.userFlags
  | .audioBuffer => t.audioBuffer = s.audioBuffer
  | .planes => ∀ p y x, t.pixel p y x = s.pixel p y x
  | .keys => t.keys = s.keys
  | .memory => ∀ a, t.readByte a = s.readByte a
  | .redraw => t.redraw = s.redraw
  | .quirks => t.quirks = s.quirks
  | .draws => t.draws = s.draws
  | .diag => t.diag = s.diag

/-- Every piece of state but the named ones is the same. -/
def OnlyChanges (named : List Piece) (s t : State) : Prop := ∀ q, q ∉ named → Kept s t q

/-- Every general register but the named ones is the same. -/
def RegsKept (named : List Reg) (s t : State) : Prop := ∀ r, r ∉ named → t.readV r = s.readV r

/-- Every byte of memory but those at the named addresses is the same. -/
def BytesKept (named : List Addr) (s t : State) : Prop := ∀ a, a ∉ named → t.readByte a = s.readByte a

/-- The instruction completes with a next state that has a property. -/
def Completes (i : Instr) (s : State) (P : State → Prop) : Prop := ∃ t, exec i s = .next t ∧ P t

/-- The instruction completes and changes one general register alone, to a value. -/
def WritesOnly (i : Instr) (s : State) (x : Reg) (value : Byte) : Prop :=
  Completes i s fun t => t.readV x = value ∧ RegsKept [x] s t ∧ OnlyChanges [.V] s t

/-- The instruction completes, writes a result to `V[x]` and then a flag to `VF`, which is what `VF` holds at the end
also when `x` is `VF` itself (10_state.md R23), and changes nothing else. -/
def WritesWithFlag (i : Instr) (s : State) (x : Reg) (result flag : Nat) : Prop :=
  Completes i s fun t => (x ≠ regF → (t.readV x).toNat = result) ∧ (t.readV regF).toNat = flag ∧
    RegsKept [x, regF] s t ∧ OnlyChanges [.V] s t

/-! ## Words that are no instruction (30_encoding.md R80) -/

/-- The complete set of unrecognized words, as R80 lists it. -/
def Unrecognized (w : Word) : Prop :=
  (w.toNat < 0x1000 ∧ ¬ (0x00C0 ≤ w.toNat ∧ w.toNat ≤ 0x00DF) ∧
    w.toNat ∉ [0x00E0, 0x00EE, 0x00FB, 0x00FC, 0x00FD, 0x00FE, 0x00FF]) ∨
  (w.toNat / 0x1000 = 0x5 ∧ w.toNat % 16 ∉ [0x0, 0x2, 0x3]) ∨
  (w.toNat / 0x1000 = 0x8 ∧ w.toNat % 16 ∈ [0x8, 0x9, 0xA, 0xB, 0xC, 0xD, 0xF]) ∨
  (w.toNat / 0x1000 = 0xE ∧ w.toNat % 256 ∉ [0x9E, 0xA1]) ∨
  (w.toNat / 0x1000 = 0xF ∧
    w.toNat % 256 ∉ [0x01, 0x07, 0x0A, 0x15, 0x18, 0x1E, 0x29, 0x30, 0x33, 0x55, 0x65, 0x75, 0x85] ∧
    w.toNat ≠ 0xF000 ∧ w.toNat ≠ 0xF002)

/-- A word decodes to an instruction, whatever bytes follow it. -/
def Encodes (w : Word) (i : Instr) : Prop := ∀ rest, decode (wordBytes w ++ rest) = .ok (i, rest)

/-! ## pc after a cycle (42_control_flow.md R152) -/

/-- `pc` after a cycle that runs `i`, fetched at `a = s.pc`, for the state `s` before the cycle: the table of R152, and
`a` itself where the stack fault of R202 is taken. -/
def pcAfter (s : State) (i : Instr) : Addr :=
  let a := s.pc
  let skip (c : Bool) : Addr := if c then (if s.readWord (a + 2) = 0xF000 then a + 6 else a + 4) else a + 2
  match i with
  | .scd _ => a + 2
  | .scu _ => a + 2
  | .cls => a + 2
  | .ret => if s.sp = 0 then a else s.stack[s.sp - 1]?.getD 0
  | .scr => a + 2
  | .scl => a + 2
  | .exit => a
  | .low => a + 2
  | .high => a + 2
  | .jp nnn => BitVec.ofNat 16 nnn.toNat
  | .call nnn => if s.sp = 16 then a else BitVec.ofNat 16 nnn.toNat
  | .seVxNN x nn => skip (s.readV x = nn)
  | .sneVxNN x nn => skip (s.readV x ≠ nn)
  | .seVxVy x y => skip (s.readV x = s.readV y)
  | .save _ _ => a + 2
  | .load _ _ => a + 2
  | .ldVxNN _ _ => a + 2
  | .addVxNN _ _ => a + 2
  | .ldVxVy _ _ => a + 2
  | .orVxVy _ _ => a + 2
  | .andVxVy _ _ => a + 2
  | .xorVxVy _ _ => a + 2
  | .addVxVy _ _ => a + 2
  | .subVxVy _ _ => a + 2
  | .shrVxVy _ _ => a + 2
  | .subnVxVy _ _ => a + 2
  | .shlVxVy _ _ => a + 2
  | .sneVxVy x y _ => skip (s.readV x ≠ s.readV y)
  | .ldINNN _ => a + 2
  | .jpV0 nnn => BitVec.ofNat 16 ((nnn.toNat + (s.readV 0).toNat) % 4096)
  | .rnd _ _ => a + 2
  | .drw _ _ _ => a + 2
  | .skp x => skip (s.keys.getLsbD ((s.readV x).toNat % 16))
  | .sknp x => skip (!s.keys.getLsbD ((s.readV x).toNat % 16))
  | .ldILong _ => a + 4
  | .plane _ => a + 2
  | .audio => a + 2
  | .ldVxDT _ => a + 2
  | .ldVxK _ => if s.keys = 0 then a else a + 2
  | .ldDTVx _ => a + 2
  | .ldSTVx _ => a + 2
  | .addIVx _ => a + 2
  | .ldFVx _ => a + 2
  | .ldHFVx _ => a + 2
  | .ldBVx _ => a + 2
  | .ldMemVx _ => a + 2
  | .ldVxMem _ => a + 2
  | .ldRVx _ => a + 2
  | .ldVxR _ => a + 2

/-! ## Who may write what -/

/-- The instructions that write a flag to `VF` (10_state.md R22). -/
def writesFlag : Instr → Bool
  | .scd _ => false
  | .scu _ => false
  | .cls => false
  | .ret => false
  | .scr => false
  | .scl => false
  | .exit => false
  | .low => false
  | .high => false
  | .jp _ => false
  | .call _ => false
  | .seVxNN _ _ => false
  | .sneVxNN _ _ => false
  | .seVxVy _ _ => false
  | .save _ _ => false
  | .load _ _ => false
  | .ldVxNN _ _ => false
  | .addVxNN _ _ => false
  | .ldVxVy _ _ => false
  | .orVxVy _ _ => false
  | .andVxVy _ _ => false
  | .xorVxVy _ _ => false
  | .addVxVy _ _ => true
  | .subVxVy _ _ => true
  | .shrVxVy _ _ => true
  | .subnVxVy _ _ => true
  | .shlVxVy _ _ => true
  | .sneVxVy _ _ _ => false
  | .ldINNN _ => false
  | .jpV0 _ => false
  | .rnd _ _ => false
  | .drw _ _ _ => true
  | .skp _ => false
  | .sknp _ => false
  | .ldILong _ => false
  | .plane _ => false
  | .audio => false
  | .ldVxDT _ => false
  | .ldVxK _ => false
  | .ldDTVx _ => false
  | .ldSTVx _ => false
  | .addIVx _ => false
  | .ldFVx _ => false
  | .ldHFVx _ => false
  | .ldBVx _ => false
  | .ldMemVx _ => false
  | .ldVxMem _ => false
  | .ldRVx _ => false
  | .ldVxR _ => false

/-- The general registers that an instruction names as its destination (files 40 to 44). -/
def destinations : Instr → List Reg
  | .scd _ => []
  | .scu _ => []
  | .cls => []
  | .ret => []
  | .scr => []
  | .scl => []
  | .exit => []
  | .low => []
  | .high => []
  | .jp _ => []
  | .call _ => []
  | .seVxNN _ _ => []
  | .sneVxNN _ _ => []
  | .seVxVy _ _ => []
  | .save _ _ => []
  | .load x y => regRange x y
  | .ldVxNN x _ => [x]
  | .addVxNN x _ => [x]
  | .ldVxVy x _ => [x]
  | .orVxVy x _ => [x]
  | .andVxVy x _ => [x]
  | .xorVxVy x _ => [x]
  | .addVxVy x _ => [x]
  | .subVxVy x _ => [x]
  | .shrVxVy x _ => [x]
  | .subnVxVy x _ => [x]
  | .shlVxVy x _ => [x]
  | .sneVxVy _ _ _ => []
  | .ldINNN _ => []
  | .jpV0 _ => []
  | .rnd x _ => [x]
  | .drw _ _ _ => []
  | .skp _ => []
  | .sknp _ => []
  | .ldILong _ => []
  | .plane _ => []
  | .audio => []
  | .ldVxDT x => [x]
  | .ldVxK _ => []
  | .ldDTVx _ => []
  | .ldSTVx _ => []
  | .addIVx _ => []
  | .ldFVx _ => []
  | .ldHFVx _ => []
  | .ldBVx _ => []
  | .ldMemVx _ => []
  | .ldVxMem x => regsUpTo x
  | .ldRVx _ => []
  | .ldVxR x => (flagIndices x).map (BitVec.ofNat 4)

/-! ## The sprite (43_graphics.md R170 to R172) -/

/-- Source bit of a sprite: column `c` of row `r` in the block of a plane that `j` selected planes precede. A row is one
byte, or two for `N = 0`; the most significant bit is the leftmost column (R170, R171). -/
def sourceBit (s : State) (n j r c : Nat) : Bool :=
  (s.readByte (s.I + BitVec.ofNat 16
    (if n = 0 then j * 32 + r * 2 + c / 8 else j * n + r))).getLsbD (7 - c % 8)

/-- How many selected planes are drawn before plane `p` (R170, R171). -/
def planesBefore (s : State) (p : Fin 2) : Nat := if p = 1 ∧ s.selected 0 = true then 1 else 0

/-- The plane pixel `(p, y, x)` is placed by the sprite of `N = n` at the origin `(x0, y0)`: the plane is selected, and
the pixel is one of the block of a set source bit, after scaling, and wrapped or not clipped (R160, R172). -/
def Placed (s : State) (x0 y0 n : Nat) (p : Fin 2) (y : Fin 64) (x : Fin 128) : Prop :=
  s.selected p = true ∧
  ∃ r c dy dx, r < (if n = 0 then 16 else n) ∧ c < (if n = 0 then 16 else 8) ∧
    dy < s.pixelFactor ∧ dx < s.pixelFactor ∧
    sourceBit s n (planesBefore s p) r c = true ∧
    (if s.quirks.spritesWrap
      then x.val = ((x0 + c) * s.pixelFactor + dx) % 128 ∧ y.val = ((y0 + r) * s.pixelFactor + dy) % 64
      else x.val = (x0 + c) * s.pixelFactor + dx ∧ y.val = (y0 + r) * s.pixelFactor + dy)

end Sys2Proof.Claims

open Sys2Proof Sys2Proof.Machine Sys2Proof.Claims

/-! # Encoding -/

/-- A few words written out from 30_encoding.md R71, R75 to R79, and what they decode to. -/
def Obligations.SampleWordsDecode : Prop :=
  decode [0x00, 0xC3] = .ok (.scd 3, []) ∧
  decode [0x00, 0xEE] = .ok (.ret, []) ∧
  decode [0x12, 0x34] = .ok (.jp 0x234, []) ∧
  decode [0x53, 0x12] = .ok (.save 3 1, []) ∧
  decode [0x8A, 0xB4] = .ok (.addVxVy 0xA 0xB, []) ∧
  decode [0xD1, 0x25] = .ok (.drw 1 2 5, []) ∧
  decode [0xE5, 0xA1] = .ok (.sknp 5, []) ∧
  decode [0xF0, 0x00, 0x12, 0x34] = .ok (.ldILong 0x1234, []) ∧
  decode [0xF7, 0x33] = .ok (.ldBVx 7, []) ∧
  decode [0x81, 0x28] = .error (.unrecognized 0x8128)

/-- The tables of R75 to R79: every word of a row, whatever its fields, decodes to the row's instruction; `N` of a count
is the field's value. -/
def Obligations.OpcodeTablesDecode : Prop :=
  (∀ n : Nibble, Encodes (0x00C#12 ++ n) (.scd n.toNat) ∧ Encodes (0x00D#12 ++ n) (.scu n.toNat)) ∧
  Encodes 0x00E0 .cls ∧ Encodes 0x00EE .ret ∧ Encodes 0x00FB .scr ∧ Encodes 0x00FC .scl ∧
  Encodes 0x00FD .exit ∧ Encodes 0x00FE .low ∧ Encodes 0x00FF .high ∧
  (∀ nnn : BitVec 12, Encodes (0x1#4 ++ nnn) (.jp nnn) ∧ Encodes (0x2#4 ++ nnn) (.call nnn) ∧
    Encodes (0xA#4 ++ nnn) (.ldINNN nnn) ∧ Encodes (0xB#4 ++ nnn) (.jpV0 nnn)) ∧
  (∀ (x : Nibble) (nn : Byte), Encodes (0x3#4 ++ x ++ nn) (.seVxNN x nn) ∧ Encodes (0x4#4 ++ x ++ nn) (.sneVxNN x nn) ∧
    Encodes (0x6#4 ++ x ++ nn) (.ldVxNN x nn) ∧ Encodes (0x7#4 ++ x ++ nn) (.addVxNN x nn) ∧
    Encodes (0xC#4 ++ x ++ nn) (.rnd x nn)) ∧
  (∀ x y : Nibble, Encodes (0x5#4 ++ x ++ y ++ 0x0#4) (.seVxVy x y) ∧ Encodes (0x5#4 ++ x ++ y ++ 0x2#4) (.save x y) ∧
    Encodes (0x5#4 ++ x ++ y ++ 0x3#4) (.load x y) ∧
    Encodes (0x8#4 ++ x ++ y ++ 0x0#4) (.ldVxVy x y) ∧ Encodes (0x8#4 ++ x ++ y ++ 0x1#4) (.orVxVy x y) ∧
    Encodes (0x8#4 ++ x ++ y ++ 0x2#4) (.andVxVy x y) ∧ Encodes (0x8#4 ++ x ++ y ++ 0x3#4) (.xorVxVy x y) ∧
    Encodes (0x8#4 ++ x ++ y ++ 0x4#4) (.addVxVy x y) ∧ Encodes (0x8#4 ++ x ++ y ++ 0x5#4) (.subVxVy x y) ∧
    Encodes (0x8#4 ++ x ++ y ++ 0x6#4) (.shrVxVy x y) ∧ Encodes (0x8#4 ++ x ++ y ++ 0x7#4) (.subnVxVy x y) ∧
    Encodes (0x8#4 ++ x ++ y ++ 0xE#4) (.shlVxVy x y)) ∧
  (∀ x y n : Nibble, Encodes (0x9#4 ++ x ++ y ++ n) (.sneVxVy x y n) ∧
    Encodes (0xD#4 ++ x ++ y ++ n) (.drw x y n.toNat)) ∧
  (∀ x : Nibble, Encodes (0xE#4 ++ x ++ 0x9E#8) (.skp x) ∧ Encodes (0xE#4 ++ x ++ 0xA1#8) (.sknp x) ∧
    Encodes (0xF#4 ++ x ++ 0x01#8) (.plane x) ∧ Encodes (0xF#4 ++ x ++ 0x07#8) (.ldVxDT x) ∧
    Encodes (0xF#4 ++ x ++ 0x0A#8) (.ldVxK x) ∧ Encodes (0xF#4 ++ x ++ 0x15#8) (.ldDTVx x) ∧
    Encodes (0xF#4 ++ x ++ 0x18#8) (.ldSTVx x) ∧ Encodes (0xF#4 ++ x ++ 0x1E#8) (.addIVx x) ∧
    Encodes (0xF#4 ++ x ++ 0x29#8) (.ldFVx x) ∧ Encodes (0xF#4 ++ x ++ 0x30#8) (.ldHFVx x) ∧
    Encodes (0xF#4 ++ x ++ 0x33#8) (.ldBVx x) ∧ Encodes (0xF#4 ++ x ++ 0x55#8) (.ldMemVx x) ∧
    Encodes (0xF#4 ++ x ++ 0x65#8) (.ldVxMem x) ∧ Encodes (0xF#4 ++ x ++ 0x75#8) (.ldRVx x) ∧
    Encodes (0xF#4 ++ x ++ 0x85#8) (.ldVxR x)) ∧
  Encodes 0xF002 .audio ∧
  (∀ (nnnn : Word) (rest : List Byte),
    decode (wordBytes 0xF000 ++ wordBytes nnnn ++ rest) = .ok (.ldILong nnnn, rest)) ∧
  (∀ (w : Word) (rest : List Byte), decode (wordBytes w ++ rest) = .error (.unrecognized w) ↔ Unrecognized w)

/-- R70: the length is two words if and only if the first word is exactly 0xF000, and is told from it alone. -/
def Obligations.LengthToldByFirstWord : Prop :=
  ∀ (hi lo : Byte) (tail rest : List Byte) (i : Instr), decode (hi :: lo :: tail) = .ok (i, rest) →
    (hi ++ lo = 0xF000#16 → ∃ a b, tail = a :: b :: rest) ∧ (hi ++ lo ≠ 0xF000#16 → tail = rest)

/-- Decoding an encoded well-formed instruction gives it back, every operand included. -/
def Obligations.DecodeAfterEncode : Prop :=
  ∀ (i : Instr) (rest : List Byte), i.wellFormed = true → decode (encodeBytes i ++ rest) = .ok (i, rest)

/-- Whatever the decoder accepts is well-formed and encodes to the bytes it was read from: each word has one meaning. -/
def Obligations.EncodeAfterDecode : Prop :=
  ∀ (bytes rest : List Byte) (i : Instr), decode bytes = .ok (i, rest) →
    i.wellFormed = true ∧ encodeBytes i ++ rest = bytes

/-! # The cycle -/

/-- R206, with the spec's decision D25 for the faulted core: a cycle of a stopped or faulted core changes nothing; any
other runs the instruction that the bytes at `pc` decode to (their first word big-endian), with `pc` moved past one
word, or, for an unrecognized word, puts out one diagnostic record and moves past it. -/
def Obligations.CycleRunsDecodedInstruction : Prop :=
  (∀ s : State, s.stopped = true ∨ s.fault ≠ .none → step s = .next s) ∧
  (∀ (s : State) (i : Instr) (rest : List Byte), s.stopped = false → s.fault = .none →
    decode [s.readByte s.pc, s.readByte (s.pc + 1), s.readByte (s.pc + 2), s.readByte (s.pc + 3)] = .ok (i, rest) →
    step s = exec i { s with pc := s.pc + 2 }) ∧
  (∀ s : State, s.stopped = false → s.fault = .none → Unrecognized (s.readByte s.pc ++ s.readByte (s.pc + 1)) →
    step s = .next { s with pc := s.pc + 2, diag := ⟨s.readByte s.pc ++ s.readByte (s.pc + 1), s.pc⟩ :: s.diag })

/-- No step of any state stops with a fault or a refusal: every word has a defined outcome (R13, R80). -/
def Obligations.EveryCycleHasNextState : Prop := ∀ s : State, ∃ t, step s = .next t

/-- Every cycle keeps the invariant: canonical memory, `sp <= 16`, a precise fault record. -/
def Obligations.CycleKeepsInvariant : Prop := ∀ s t : State, s.Inv → step s = .next t → t.Inv

/-- The invariant holds after reset. -/
def Obligations.ResetHasInvariant : Prop := State.reset.Inv

/-- Every event of the interface keeps the invariant, so every run of events from reset does. -/
def Obligations.RunsKeepInvariant : Prop :=
  ∀ (s t : State) (es : List Event), s.Inv → s.runEvents es = .next t → t.Inv

/-- The table that R152 derives from R141 to R151: where `pc` is after one cycle. The stack's bound is the model's
invariant; the `FX0A` row is in the reading of the wait of D13 (log 17), the stack fault is the spec's decision D7. -/
def Obligations.PcAfterCycle : Prop :=
  (∀ s : State, s.stopped = true ∨ s.fault ≠ .none → ∃ t, step s = .next t ∧ t.pc = s.pc) ∧
  (∀ (s : State) (i : Instr) (rest : List Byte), s.Inv → s.stopped = false → s.fault = .none →
    decode s.fetchBytes = .ok (i, rest) → ∃ t, step s = .next t ∧ t.pc = pcAfter s i)

/-- R202, the spec's decision D7: a stack fault is precise and sticky: the cycle leaves the state before it, with the
fault record as the only change, and every later cycle changes nothing. -/
def Obligations.StackFaultIsPreciseAndSticky : Prop :=
  (∀ (s : State) (nnn : BitVec 12) (rest : List Byte), s.stopped = false → s.fault = .none → s.sp = 16 →
    decode s.fetchBytes = .ok (.call nnn, rest) →
    step s = .next { s with fault := .stackOverflow s.pc } ∧
    step { s with fault := .stackOverflow s.pc } = .next { s with fault := .stackOverflow s.pc }) ∧
  (∀ (s : State) (rest : List Byte), s.stopped = false → s.fault = .none → s.sp = 0 →
    decode s.fetchBytes = .ok (.ret, rest) →
    step s = .next { s with fault := .stackUnderflow s.pc } ∧
    step { s with fault := .stackUnderflow s.pc } = .next { s with fault := .stackUnderflow s.pc })

/-- The "written by" lists of R26 to R40: which instruction may change each piece of control state. -/
def Obligations.ControlStateHasItsWriters : Prop :=
  ∀ (i : Instr) (s t : State), exec i s = .next t →
    t.keys = s.keys ∧ t.quirks = s.quirks ∧ t.diag = s.diag ∧
    (t.hiRes ≠ s.hiRes → i = .low ∨ i = .high) ∧
    (t.bitPlaneSelect ≠ s.bitPlaneSelect → ∃ n, i = .plane n) ∧
    (t.stopped ≠ s.stopped → i = .exit) ∧
    (t.waitingForKey ≠ s.waitingForKey ∨ t.waitRegister ≠ s.waitRegister → ∃ x, i = .ldVxK x) ∧
    (t.delayTimer ≠ s.delayTimer → ∃ x, i = .ldDTVx x) ∧
    (t.soundTimer ≠ s.soundTimer → ∃ x, i = .ldSTVx x) ∧
    (t.userFlags ≠ s.userFlags → ∃ x, i = .ldRVx x) ∧
    (t.audioBuffer ≠ s.audioBuffer → i = .audio) ∧
    (t.stack ≠ s.stack → ∃ nnn, i = .call nnn) ∧
    (t.sp ≠ s.sp ∨ t.fault ≠ s.fault → i = .ret ∨ ∃ nnn, i = .call nnn) ∧
    (t.draws ≠ s.draws → ∃ x nn, i = .rnd x nn)

/-- Which instruction may change memory, the planes, the redraw signal and `I` (20_memory.md R50, 10_state.md R25, R37,
R40). -/
def Obligations.MemoryAndPlanesHaveTheirWriters : Prop :=
  ∀ (i : Instr) (s t : State), exec i s = .next t →
    ((∃ a, t.readByte a ≠ s.readByte a) → (∃ x, i = .ldBVx x) ∨ (∃ x, i = .ldMemVx x) ∨ ∃ x y, i = .save x y) ∧
    (t.planes ≠ s.planes ∨ t.redraw ≠ s.redraw →
      i = .cls ∨ i = .scr ∨ i = .scl ∨ i = .low ∨ i = .high ∨ (∃ n, i = .scd n) ∨ (∃ n, i = .scu n) ∨
      ∃ x y n, i = .drw x y n) ∧
    (t.I ≠ s.I → (∃ nnn, i = .ldINNN nnn) ∨ (∃ nnnn, i = .ldILong nnnn) ∨ (∃ x, i = .addIVx x) ∨ (∃ x, i = .ldFVx x) ∨
      (∃ x, i = .ldHFVx x) ∨ (s.quirks.loadStoreIncrementsI = true ∧ ((∃ x, i = .ldMemVx x) ∨ ∃ x, i = .ldVxMem x)))

/-- R22 and the summary that R113 derives: a general register changes only where it is a named destination, and `VF`
also where the instruction writes a flag. -/
def Obligations.RegistersChangeOnlyAsNamed : Prop :=
  ∀ (i : Instr) (s t : State) (r : Reg), exec i s = .next t → t.readV r ≠ s.readV r →
    r ∈ destinations i ∨ (r = regF ∧ writesFlag i = true)

/-! # Arithmetic and logic (40_alu.md) -/

/-- R101. -/
def Obligations.LoadImmediateWritesRegister : Prop :=
  ∀ (x : Reg) (nn : Byte) (s : State), WritesOnly (.ldVxNN x nn) s x nn

/-- R102: the sum wraps and no flag is written (that no carry is recorded is the spec's general knowledge, D12). -/
def Obligations.AddImmediateWrapsWithoutFlag : Prop :=
  ∀ (x : Reg) (nn : Byte) (s : State),
    WritesOnly (.addVxNN x nn) s x (BitVec.ofNat 8 (((s.readV x).toNat + nn.toNat) % 256))

/-- R103, which the spec supplies from general knowledge. -/
def Obligations.CopyWritesRegister : Prop :=
  ∀ (x y : Reg) (s : State), WritesOnly (.ldVxVy x y) s x (s.readV y)

/-- R104, R105, R106: bit by bit, and `VF` is left alone unless it is the destination (the spec's decision D12). -/
def Obligations.LogicWorksBitwiseWithoutFlag : Prop :=
  ∀ (x y : Reg) (s : State),
    (∃ v, WritesOnly (.orVxVy x y) s x v ∧ ∀ b < 8, v.getLsbD b = ((s.readV x).getLsbD b || (s.readV y).getLsbD b)) ∧
    (∃ v, WritesOnly (.andVxVy x y) s x v ∧ ∀ b < 8, v.getLsbD b = ((s.readV x).getLsbD b && (s.readV y).getLsbD b)) ∧
    (∃ v, WritesOnly (.xorVxVy x y) s x v ∧ ∀ b < 8, v.getLsbD b = ((s.readV x).getLsbD b ^^ (s.readV y).getLsbD b))

/-- R107. -/
def Obligations.AddSetsCarryLast : Prop :=
  ∀ (x y : Reg) (s : State),
    WritesWithFlag (.addVxVy x y) s x (((s.readV x).toNat + (s.readV y).toNat) % 256)
      (if (s.readV x).toNat + (s.readV y).toNat > 255 then 1 else 0)

/-- R108, and R110 which the spec derives from it: `(a - b) mod 256` and 1 for no borrow (for equal operands the spec's
general knowledge); SUBN with the operands exchanged. -/
def Obligations.SubtractionsSetNotBorrowLast : Prop :=
  ∀ (x y : Reg) (s : State),
    WritesWithFlag (.subVxVy x y) s x (((s.readV x).toNat + 256 - (s.readV y).toNat) % 256)
      (if (s.readV x).toNat ≥ (s.readV y).toNat then 1 else 0) ∧
    WritesWithFlag (.subnVxVy x y) s x (((s.readV y).toNat + 256 - (s.readV x).toNat) % 256)
      (if (s.readV y).toNat ≥ (s.readV x).toNat then 1 else 0)

/-- R109, R111: the quirk selects the source, and `VF` is the bit shifted out (which word shifts right and which left is
the spec's general knowledge). -/
def Obligations.ShiftsUseQuirkSource : Prop :=
  ∀ (x y : Reg) (s : State) (src : Byte),
    src = (if s.quirks.shiftUsesVy = true then s.readV y else s.readV x) →
    WritesWithFlag (.shrVxVy x y) s x (src.toNat / 2) (src.toNat % 2) ∧
    WritesWithFlag (.shlVxVy x y) s x (src.toNat * 2 % 256) (src.toNat / 128)

/-- R112 (the spec's decision D20) with the model's free value (log 4): the drawn byte masked, a fresh one next time, no
flag. It holds for every value of `Config.rnd`. -/
def Obligations.RandomIsMaskedDraw : Prop :=
  ∀ (x : Reg) (nn : Byte) (s : State), Completes (.rnd x nn) s fun t =>
    t.readV x = (Config.rnd s.draws &&& nn) ∧ (∀ b < 8, (t.readV x).getLsbD b = true → nn.getLsbD b = true) ∧
    t.draws = s.draws + 1 ∧ RegsKept [x] s t ∧ OnlyChanges [.V, .draws] s t

/-! # Index register and memory (41_memory_ops.md) -/

/-- R120, which the spec supplies from general knowledge. -/
def Obligations.LoadIndexTakesTwelveBits : Prop :=
  ∀ (nnn : BitVec 12) (s : State), Completes (.ldINNN nnn) s fun t => t.I.toNat = nnn.toNat ∧ OnlyChanges [.I] s t

/-- R121: as an instruction, and as a cycle that reads its second word from memory. -/
def Obligations.LongLoadIndexTakesSecondWord : Prop :=
  (∀ (nnnn : Word) (s : State), Completes (.ldILong nnnn) s fun t =>
    t.I = nnnn ∧ t.pc = s.pc + 2 ∧ OnlyChanges [.I, .pc] s t) ∧
  (∀ s : State, s.stopped = false → s.fault = .none → s.readByte s.pc = 0xF0 → s.readByte (s.pc + 1) = 0x00 →
    ∃ t, step s = .next t ∧ t.I = s.readByte (s.pc + 2) ++ s.readByte (s.pc + 3) ∧ t.pc = s.pc + 4 ∧
      OnlyChanges [.I, .pc] s t)

/-- R122: mod 65536, no mask, no flag (the spec's decisions D3 and D12). -/
def Obligations.AddIndexWrapsWithoutFlag : Prop :=
  ∀ (x : Reg) (s : State), Completes (.addIVx x) s fun t =>
    t.I.toNat = (s.I.toNat + (s.readV x).toNat) % 65536 ∧ OnlyChanges [.I] s t

/-- R123, R124: the addresses of the glyphs of a digit, its low nibble (the spec's decision D10). -/
def Obligations.GlyphAddressesUseLowNibble : Prop :=
  ∀ (x : Reg) (s : State),
    (Completes (.ldFVx x) s fun t => t.I.toNat = 5 * ((s.readV x).toNat % 16) ∧ OnlyChanges [.I] s t) ∧
    (Completes (.ldHFVx x) s fun t => t.I.toNat = 80 + 10 * ((s.readV x).toNat % 16) ∧ OnlyChanges [.I] s t)

/-- R125: hundreds at `I`, tens and ones at the masked addresses of `I + 1` and `I + 2`, and no other byte. -/
def Obligations.BcdStoresThreeDigits : Prop :=
  ∀ (x : Reg) (s : State), Completes (.ldBVx x) s fun t =>
    (t.readByte s.I).toNat = (s.readV x).toNat / 100 ∧
    (t.readByte (mask12 (s.I + 1))).toNat = (s.readV x).toNat / 10 % 10 ∧
    (t.readByte (mask12 (s.I + 2))).toNat = (s.readV x).toNat % 10 ∧
    (mask12 (s.I + 1)).toNat = (s.I.toNat + 1) % 4096 ∧ (mask12 (s.I + 2)).toNat = (s.I.toNat + 2) % 4096 ∧
    BytesKept [s.I, mask12 (s.I + 1), mask12 (s.I + 2)] s t ∧ OnlyChanges [.memory] s t

/-- R126: `V[k]` at `(I + k) mod 4096` for `k` in `0..X`, no other byte, and `I` by the quirk. That every byte is masked,
the first included, is the spec's decision D5. -/
def Obligations.StoreRegistersWritesMaskedBlock : Prop :=
  ∀ (x : Reg) (s : State), Completes (.ldMemVx x) s fun t =>
    (∀ k ≤ x.toNat, t.readByte (mask12 (s.I + BitVec.ofNat 16 k)) = s.readV (BitVec.ofNat 4 k) ∧
      (mask12 (s.I + BitVec.ofNat 16 k)).toNat = (s.I.toNat + k) % 4096) ∧
    BytesKept ((List.range (x.toNat + 1)).map fun k => mask12 (s.I + BitVec.ofNat 16 k)) s t ∧
    t.I.toNat = (if s.quirks.loadStoreIncrementsI = true then (s.I.toNat + x.toNat + 1) % 65536 else s.I.toNat) ∧
    OnlyChanges [.memory, .I] s t

/-- R127: the converse; the registers above `X` keep their values. That every byte is masked, the first included, is the
spec's decision D5. -/
def Obligations.LoadRegistersReadsMaskedBlock : Prop :=
  ∀ (x : Reg) (s : State), Completes (.ldVxMem x) s fun t =>
    (∀ r : Reg, r.toNat ≤ x.toNat → t.readV r = s.readByte (mask12 (s.I + BitVec.ofNat 16 r.toNat)) ∧
      (mask12 (s.I + BitVec.ofNat 16 r.toNat)).toNat = (s.I.toNat + r.toNat) % 4096) ∧
    (∀ r : Reg, x.toNat < r.toNat → t.readV r = s.readV r) ∧
    t.I.toNat = (if s.quirks.loadStoreIncrementsI = true then (s.I.toNat + x.toNat + 1) % 65536 else s.I.toNat) ∧
    OnlyChanges [.V, .I] s t

/-- The property that R127 quotes: what `FX55` stored, `FX65` at the same `I` loads, whatever the registers hold by then;
the addresses are masked as the spec's decision D5 says. -/
def Obligations.StoreThenLoadRestoresRegisters : Prop :=
  ∀ (x : Reg) (s t u : State) (regs : Vector Byte 16), exec (.ldMemVx x) s = .next t →
    exec (.ldVxMem x) { t with V := regs, I := s.I } = .next u →
    ∀ r : Reg, r.toNat ≤ x.toNat → u.readV r = s.readV r

/-- R128: the range `X..Y` in either direction, ascending in memory. That every byte is masked, the first included, and
that `I` is unchanged is the spec's decision D5. -/
def Obligations.SaveStoresRegisterRange : Prop :=
  ∀ (x y : Reg) (s : State), Completes (.save x y) s fun t =>
    (x.toNat ≤ y.toNat → (∀ k ≤ y.toNat - x.toNat,
        t.readByte (mask12 (s.I + BitVec.ofNat 16 k)) = s.readV (x + BitVec.ofNat 4 k) ∧
        (mask12 (s.I + BitVec.ofNat 16 k)).toNat = (s.I.toNat + k) % 4096) ∧
      BytesKept ((List.range (y.toNat - x.toNat + 1)).map fun k => mask12 (s.I + BitVec.ofNat 16 k)) s t) ∧
    (y.toNat < x.toNat → (∀ k ≤ x.toNat - y.toNat,
        t.readByte (mask12 (s.I + BitVec.ofNat 16 k)) = s.readV (x - BitVec.ofNat 4 k) ∧
        (mask12 (s.I + BitVec.ofNat 16 k)).toNat = (s.I.toNat + k) % 4096) ∧
      BytesKept ((List.range (x.toNat - y.toNat + 1)).map fun k => mask12 (s.I + BitVec.ofNat 16 k)) s t) ∧
    OnlyChanges [.memory] s t

/-- R129, the converse of R128: the registers outside the range keep their values. That every byte is masked, the first
included, and that `I` is unchanged is the spec's decision D5. -/
def Obligations.LoadReadsRegisterRange : Prop :=
  ∀ (x y : Reg) (s : State), Completes (.load x y) s fun t =>
    (x.toNat ≤ y.toNat → ∀ k ≤ y.toNat - x.toNat,
        t.readV (x + BitVec.ofNat 4 k) = s.readByte (mask12 (s.I + BitVec.ofNat 16 k)) ∧
        (mask12 (s.I + BitVec.ofNat 16 k)).toNat = (s.I.toNat + k) % 4096) ∧
    (y.toNat < x.toNat → ∀ k ≤ x.toNat - y.toNat,
        t.readV (x - BitVec.ofNat 4 k) = s.readByte (mask12 (s.I + BitVec.ofNat 16 k)) ∧
        (mask12 (s.I + BitVec.ofNat 16 k)).toNat = (s.I.toNat + k) % 4096) ∧
    (∀ r : Reg, r.toNat < min x.toNat y.toNat ∨ max x.toNat y.toNat < r.toNat → t.readV r = s.readV r) ∧
    OnlyChanges [.V] s t

/-- R130, R131: registers `0..min(X, 7)` to and from the flag bytes; the others keep their values (the bound is the
spec's decision D11). -/
def Obligations.FlagBytesSaveAndRestore : Prop :=
  ∀ (x : Reg) (s : State),
    (Completes (.ldRVx x) s fun t =>
      (∀ k : Fin 8, t.userFlags[k] =
        if k.val ≤ min x.toNat 7 then s.readV (BitVec.ofNat 4 k.val) else s.userFlags[k]) ∧
      OnlyChanges [.userFlags] s t) ∧
    (Completes (.ldVxR x) s fun t =>
      (∀ k : Fin 8, k.val ≤ min x.toNat 7 → t.readV (BitVec.ofNat 4 k.val) = s.userFlags[k]) ∧
      (∀ r : Reg, min x.toNat 7 < r.toNat → t.readV r = s.readV r) ∧
      OnlyChanges [.V] s t)

/-- R132, whose source address `I` is the spec's general knowledge; unmasked, the spec's decision D5. -/
def Obligations.AudioCopiesSixteenBytes : Prop :=
  ∀ s : State, Completes .audio s fun t =>
    (∀ k : Fin 16, t.audioBuffer[k] = s.readByte (BitVec.ofNat 16 ((s.I.toNat + k.val) % 65536))) ∧
    OnlyChanges [.audioBuffer] s t

/-- 20_memory.md section 7 and the `HostWrite` of 92_eei_decisions.md D29: after any stores every byte is the one stored
last at its address, or the one before where none was stored; the order of stores to different addresses leaves no trace
in the data. -/
def Obligations.MemoryHoldsLastWrite : Prop :=
  (∀ (s : State) (ws : List (Addr × Byte)), ∃ t, s.runEvents (ws.map fun w => .hostWrite w.1 w.2) = .next t ∧
    OnlyChanges [.memory] s t ∧
    ∀ q, t.readByte q = ((ws.reverse.find? fun w => w.1 = q).map Prod.snd).getD (s.readByte q)) ∧
  (∀ (s : State) (a a' : Addr) (b b' : Byte), s.mem.wf → a ≠ a' →
    (s.writeByte a b).writeByte a' b' = (s.writeByte a' b').writeByte a b)

/-! # Control transfer (42_control_flow.md) -/

/-- R141, which the spec supplies from general knowledge. -/
def Obligations.JumpLoadsTwelveBits : Prop :=
  ∀ (nnn : BitVec 12) (s : State), Completes (.jp nnn) s fun t => t.pc.toNat = nnn.toNat ∧ OnlyChanges [.pc] s t

/-- R142 (push convention and fault: general knowledge and decision D7): below 16 the return address goes to
`stack[sp]`; at 16 the stack fault is taken. -/
def Obligations.CallPushesOrOverflows : Prop :=
  (∀ (nnn : BitVec 12) (s : State) (h : s.sp < 16), Completes (.call nnn) s fun t =>
    t.stack = s.stack.set s.sp s.pc ∧ t.sp = s.sp + 1 ∧ t.pc.toNat = nnn.toNat ∧ OnlyChanges [.stack, .sp, .pc] s t) ∧
  (∀ (nnn : BitVec 12) (s : State), s.sp = 16 → Completes (.call nnn) s fun t =>
    t.fault = .stackOverflow (s.pc - 2) ∧ t.pc = s.pc - 2 ∧ OnlyChanges [.fault, .pc] s t)

/-- R143 (pop convention and fault: general knowledge and decision D7): above 0 the address in `stack[sp - 1]` is taken,
and the slot keeps it; at 0 the stack fault is taken. -/
def Obligations.ReturnPopsOrUnderflows : Prop :=
  (∀ (s : State) (h : 0 < s.sp ∧ s.sp ≤ 16), Completes .ret s fun t =>
    t.pc = s.stack[s.sp - 1] ∧ t.sp = s.sp - 1 ∧ OnlyChanges [.sp, .pc] s t) ∧
  (∀ s : State, s.sp = 0 → Completes .ret s fun t =>
    t.fault = .stackUnderflow (s.pc - 2) ∧ t.pc = s.pc - 2 ∧ OnlyChanges [.fault, .pc] s t)

/-- R144, the spec's decision D6: `(NNN + V0) mod 4096`. -/
def Obligations.OffsetJumpWrapsAtTwelveBits : Prop :=
  ∀ (nnn : BitVec 12) (s : State), Completes (.jpV0 nnn) s fun t =>
    t.pc.toNat = (nnn.toNat + (s.readV 0).toNat) % 4096 ∧ OnlyChanges [.pc] s t

/-- R145 to R149: a skip on registers moves `pc` by 4 over a word 0xF000 and by 2 over any other if its condition holds,
and not at all otherwise (which comparison skips is the spec's general knowledge). -/
def Obligations.RegisterSkipsFollowConditions : Prop :=
  ∀ (s : State) (width : Addr), width = (if s.readByte s.pc ++ s.readByte (s.pc + 1) = 0xF000#16 then 4 else 2) →
    ∀ (x y : Reg) (n : Nibble) (nn : Byte),
      (Completes (.seVxNN x nn) s fun t =>
        t.pc = (if s.readV x = nn then s.pc + width else s.pc) ∧ OnlyChanges [.pc] s t) ∧
      (Completes (.sneVxNN x nn) s fun t =>
        t.pc = (if s.readV x = nn then s.pc else s.pc + width) ∧ OnlyChanges [.pc] s t) ∧
      (Completes (.seVxVy x y) s fun t =>
        t.pc = (if s.readV x = s.readV y then s.pc + width else s.pc) ∧ OnlyChanges [.pc] s t) ∧
      (Completes (.sneVxVy x y n) s fun t =>
        t.pc = (if s.readV x = s.readV y then s.pc else s.pc + width) ∧ OnlyChanges [.pc] s t)

/-- R150, R151: a skip on the key that the low nibble of `V[X]` names (the spec's decision D10 and general knowledge). -/
def Obligations.KeySkipsFollowKeys : Prop :=
  ∀ (s : State) (width : Addr), width = (if s.readByte s.pc ++ s.readByte (s.pc + 1) = 0xF000#16 then 4 else 2) →
    ∀ x : Reg,
      (Completes (.skp x) s fun t =>
        t.pc = (if s.keys.getLsbD ((s.readV x).toNat % 16) = true then s.pc + width else s.pc) ∧
        OnlyChanges [.pc] s t) ∧
      (Completes (.sknp x) s fun t =>
        t.pc = (if s.keys.getLsbD ((s.readV x).toNat % 16) = true then s.pc else s.pc + width) ∧
        OnlyChanges [.pc] s t)

/-! # Graphics (43_graphics.md) -/

/-- R161: every pixel of a selected plane becomes 0, an unselected plane is kept, `redraw` is set (the spec's decision
D16). -/
def Obligations.ClearZeroesSelectedPlanes : Prop :=
  ∀ s : State, Completes .cls s fun t =>
    (∀ p y x, t.pixel p y x = if s.selected p = true then false else s.pixel p y x) ∧
    t.redraw = true ∧ OnlyChanges [.planes, .redraw] s t

/-- R163, R164: vertical scrolls of the selected planes, in plane pixels (the spec's decision D15). -/
def Obligations.VerticalScrollsMoveRows : Prop :=
  ∀ (n : Nat) (s : State), n < 16 →
    (Completes (.scd n) s fun t =>
      (∀ p y x, t.pixel p y x = if s.selected p = true
        then (if h : n ≤ y.val then s.pixel p ⟨y.val - n, by omega⟩ x else false) else s.pixel p y x) ∧
      t.redraw = true ∧ OnlyChanges [.planes, .redraw] s t) ∧
    (Completes (.scu n) s fun t =>
      (∀ p y x, t.pixel p y x = if s.selected p = true
        then (if h : y.val + n ≤ 63 then s.pixel p ⟨y.val + n, by omega⟩ x else false) else s.pixel p y x) ∧
      t.redraw = true ∧ OnlyChanges [.planes, .redraw] s t)

/-- R165, R166: horizontal scrolls of the selected planes by 4 plane pixels (the spec's general knowledge and decision
D15). -/
def Obligations.HorizontalScrollsMoveColumns : Prop :=
  ∀ s : State,
    (Completes .scr s fun t =>
      (∀ p y x, t.pixel p y x = if s.selected p = true
        then (if h : 4 ≤ x.val then s.pixel p y ⟨x.val - 4, by omega⟩ else false) else s.pixel p y x) ∧
      t.redraw = true ∧ OnlyChanges [.planes, .redraw] s t) ∧
    (Completes .scl s fun t =>
      (∀ p y x, t.pixel p y x = if s.selected p = true
        then (if h : x.val + 4 ≤ 127 then s.pixel p y ⟨x.val + 4, by omega⟩ else false) else s.pixel p y x) ∧
      t.redraw = true ∧ OnlyChanges [.planes, .redraw] s t)

/-- The asymmetry that R162 states: after `ScrollLeft(n)` then `ScrollRight(n)` columns `0..n-1` are blank and every
other column holds its original content. -/
def Obligations.ScrollLeftThenRightLosesLeftColumns : Prop :=
  ∀ (n : Nat) (old : Plane) (y : Fin 64) (x : Fin 128),
    (Plane.scrollRight n (Plane.scrollLeft n old))[y].getLsbD x.val =
      if x.val < n then false else old[y].getLsbD x.val

/-- R167, R168, R169: the resolution flag, the clear of both planes under the quirk, and the plane mask (the spec's
decisions D16 and D26). -/
def Obligations.ResolutionAndPlaneSelectAreSet : Prop :=
  ∀ (n : Nibble) (s : State),
    (Completes .low s fun t => t.hiRes = false ∧
      (∀ p y x, t.pixel p y x = if s.quirks.clearOnResolutionChange = true then false else s.pixel p y x) ∧
      t.redraw = true ∧ OnlyChanges [.hiRes, .planes, .redraw] s t) ∧
    (Completes .high s fun t => t.hiRes = true ∧
      (∀ p y x, t.pixel p y x = if s.quirks.clearOnResolutionChange = true then false else s.pixel p y x) ∧
      t.redraw = true ∧ OnlyChanges [.hiRes, .planes, .redraw] s t) ∧
    (Completes (.plane n) s fun t => t.bitPlaneSelect.toNat = n.toNat % 4 ∧ OnlyChanges [.bitPlaneSelect] s t)

/-- R170 to R174: the draw completes for every count, flips exactly the placed pixels, each once, sets `VF` to 1 exactly
if a placed pixel was set before (and to 0 otherwise), sets `redraw`, and changes nothing else. The layout of the
source bytes follows the spec's decision D22. -/
def Obligations.DrawFlipsExactlyThePlacedPixels : Prop :=
  ∀ (x y : Reg) (n : Nat) (s : State), n < 16 → Completes (.drw x y n) s fun t =>
    (∀ p py px, Placed s (s.readV x).toNat (s.readV y).toNat n p py px → t.pixel p py px = !s.pixel p py px) ∧
    (∀ p py px, ¬ Placed s (s.readV x).toNat (s.readV y).toNat n p py px → t.pixel p py px = s.pixel p py px) ∧
    ((∃ p py px, Placed s (s.readV x).toNat (s.readV y).toNat n p py px ∧ s.pixel p py px = true) →
      t.readV regF = 1) ∧
    ((∀ p py px, Placed s (s.readV x).toNat (s.readV y).toNat n p py px → s.pixel p py px = false) →
      t.readV regF = 0) ∧
    t.redraw = true ∧ RegsKept [regF] s t ∧ OnlyChanges [.V, .planes, .redraw] s t

/-- R175 (a): the same sprite drawn twice at the same place restores every pixel, and the second draw ends with `VF = 1`
exactly if some placed pixel was clear before the first. The origin is not in `VF`, which the first draw writes. -/
def Obligations.DrawingTwiceRestoresPixels : Prop :=
  ∀ (x y : Reg) (n : Nat) (s t u : State), n < 16 → x ≠ regF → y ≠ regF →
    exec (.drw x y n) s = .next t → exec (.drw x y n) t = .next u →
    (∀ p py px, u.pixel p py px = s.pixel p py px) ∧
    (u.readV regF = 1 ↔
      ∃ p py px, Placed s (s.readV x).toNat (s.readV y).toNat n p py px ∧ s.pixel p py px = false)

/-! # Timers, keys, exit, events (44_timer_key_system.md, 60_exceptions.md) -/

/-- R180, R181, R182, whose directions are the spec's general knowledge. -/
def Obligations.TimerMovesCopyBytes : Prop :=
  ∀ (x : Reg) (s : State),
    WritesOnly (.ldVxDT x) s x s.delayTimer ∧
    (Completes (.ldDTVx x) s fun t => t.delayTimer = s.readV x ∧ OnlyChanges [.delayTimer] s t) ∧
    (Completes (.ldSTVx x) s fun t => t.soundTimer = s.readV x ∧ OnlyChanges [.soundTimer] s t)

/-- R183, in the reading of the wait that the spec chooses (its decision D13, C3; U3 names the other) and the model follows
(log 17): with no key pressed `pc` goes back to the instruction and the wait is armed; with a key pressed nothing
changes. -/
def Obligations.WaitForKeyRewindsUntilPress : Prop :=
  (∀ (x : Reg) (s : State), (∀ k < 16, s.keys.getLsbD k = false) → Completes (.ldVxK x) s fun t =>
    t.pc = s.pc - 2 ∧ t.waitingForKey = true ∧ t.waitRegister = x ∧
    OnlyChanges [.pc, .waitingForKey, .waitRegister] s t) ∧
  (∀ (x : Reg) (s : State), (∃ k < 16, s.keys.getLsbD k = true) → Completes (.ldVxK x) s fun t =>
    OnlyChanges [] s t)

/-- R185: `stopped` is set, `pc` is at the `00FD` itself, and every further cycle changes nothing. -/
def Obligations.ExitStopsForGood : Prop :=
  ∀ s : State, Completes .exit s fun t =>
    t.stopped = true ∧ t.pc = s.pc - 2 ∧ OnlyChanges [.stopped, .pc] s t ∧ step t = .next t

/-- R207: both timers count down by one, never below zero, and nothing else changes, whatever the execution state (the
spec's decisions D25, D30). -/
def Obligations.TickCountsTimersDown : Prop :=
  ∀ s : State, ∃ t, s.handle .tick = .next t ∧ t.delayTimer.toNat = s.delayTimer.toNat - 1 ∧
    t.soundTimer.toNat = s.soundTimer.toNat - 1 ∧ OnlyChanges [.delayTimer, .soundTimer] s t

/-- R208, in the reading of the wait of D13 (log 17): the new vector holds; a release while a `FX0A` waits puts the lowest
released key's index into the waiting register and ends the wait; without a wait or a release only `keys` changes (the
lowest one: the spec's decision D14). -/
def Obligations.KeyReleaseCommitsLowestKey : Prop :=
  ∀ (s : State) (new : BitVec 16), ∃ t, s.handle (.keyUpdate new) = .next t ∧
    t.keys = new ∧ OnlyChanges [.keys, .V, .waitingForKey] s t ∧
    (∀ k < 16, s.waitingForKey = true → s.keys.getLsbD k = true → new.getLsbD k = false →
      (∀ j < k, ¬ (s.keys.getLsbD j = true ∧ new.getLsbD j = false)) →
      (t.readV s.waitRegister).toNat = k ∧ t.waitingForKey = false ∧ RegsKept [s.waitRegister] s t) ∧
    ((s.waitingForKey = false ∨ ∀ k < 16, ¬ (s.keys.getLsbD k = true ∧ new.getLsbD k = false)) →
      OnlyChanges [.keys] s t)

/-- R209 to R212: `HostWrite` stores one byte, `HostRead` changes no state, `AckRedraw` clears the signal, `SetQuirks` sets
the four booleans (the spec's decisions D17, D29). That `SetQuirks` has its effect in every state, also after a `Cycle`,
where R212 gives it no move, is the model's choice (log 11). -/
def Obligations.HostEventsChangeTheirOwnState : Prop :=
  ∀ (s : State) (a : Addr) (b : Byte) (q : Quirks),
    (∃ t, s.handle (.hostWrite a b) = .next t ∧ t.readByte a = b ∧ BytesKept [a] s t ∧ OnlyChanges [.memory] s t) ∧
    s.handle .hostRead = .next s ∧
    (∃ t, s.handle .ackRedraw = .next t ∧ t.redraw = false ∧ OnlyChanges [.redraw] s t) ∧
    (∃ t, s.handle (.setQuirks q) = .next t ∧ t.quirks = q ∧ OnlyChanges [.quirks] s t)

/-- R185, R187, R215: nothing but `Reset` ends a stop or a recorded stack fault (the fault is the spec's decision D7). -/
def Obligations.OnlyResetEndsAHalt : Prop :=
  ∀ (s t : State) (e : Event), e ≠ .reset → s.handle e = .next t →
    (s.stopped = true → t.stopped = true) ∧ (s.fault ≠ .none → t.fault = s.fault)

/-- What R203 derives: an event other than `Cycle` and `Reset` never moves `pc`, and changes nothing but the state that
the events' rules name. -/
def Obligations.OnlyCycleAndResetMovePc : Prop :=
  ∀ (s t : State) (e : Event), e ≠ .reset → e ≠ .cycle → s.handle e = .next t →
    t.pc = s.pc ∧
    OnlyChanges [.keys, .V, .waitingForKey, .delayTimer, .soundTimer, .memory, .redraw, .quirks] s t

/-- R212, with R41 and R43 (no instruction and no `Reset` changes the quirks): in a run that the spec admits, the quirks
are constant from the first `Cycle` on. -/
def Obligations.QuirksAreConstantOnceRunning : Prop :=
  ∀ (s t : State) (es : List Event), admissible (.cycle :: es) = true → s.runEvents (.cycle :: es) = .next t →
    t.quirks = s.quirks

/-- R231: what `Reset` writes and what it leaves, in any state (the spec's decisions D17, D18 for what the document does
not name). The glyph bytes are the model's tables (log 5). -/
def Obligations.ResetEventSetsAndKeeps : Prop :=
  ∀ s : State, ∃ t, s.handle .reset = .next t ∧
    (∀ r, t.readV r = 0) ∧ t.I = 0 ∧ t.pc.toNat = 0x200 ∧ t.sp = 0 ∧ (∀ k : Fin 16, t.stack[k] = 0) ∧
    t.delayTimer = 0 ∧ t.soundTimer = 0 ∧ (∀ p y x, t.pixel p y x = false) ∧ t.hiRes = false ∧ t.stopped = false ∧
    t.bitPlaneSelect.toNat = 1 ∧ t.waitingForKey = false ∧ t.waitRegister = 0 ∧ t.fault = .none ∧ t.redraw = true ∧
    (∀ a : Addr, a.toNat < 80 → some (t.readByte a) = fontSmall[a.toNat]?) ∧
    (∀ a : Addr, 80 ≤ a.toNat → a.toNat < 180 → some (t.readByte a) = fontBig[a.toNat - 80]?) ∧
    (∀ a : Addr, 180 ≤ a.toNat → t.readByte a = s.readByte a) ∧
    t.userFlags = s.userFlags ∧ t.audioBuffer = s.audioBuffer ∧ t.keys = s.keys ∧ t.quirks = s.quirks

/-- R43 (the spec's decisions D7, D17, D18 among its values): the state the machine starts from, the one after power-on and
the first `Reset` (log 9), row by row of the table. The glyph bytes are the model's tables (log 5); what `Reset` leaves
unchanged holds the model's free values, whatever they are (logs 1, 2, 3). -/
def Obligations.MachineStartsFromResetValues : Prop :=
  State.reset.pc.toNat = 512 ∧ (∀ r, State.reset.readV r = 0) ∧ State.reset.I = 0 ∧ State.reset.sp = 0 ∧
  (∀ k : Fin 16, State.reset.stack[k] = 0) ∧ State.reset.delayTimer = 0 ∧ State.reset.soundTimer = 0 ∧
  (∀ p y x, State.reset.pixel p y x = false) ∧ State.reset.hiRes = false ∧ State.reset.stopped = false ∧
  State.reset.bitPlaneSelect.toNat = 1 ∧ State.reset.waitingForKey = false ∧ State.reset.waitRegister = 0 ∧
  State.reset.fault = .none ∧ State.reset.redraw = true ∧ State.reset.keys = 0 ∧
  (∀ a : Addr, a.toNat < 80 → some (State.reset.readByte a) = fontSmall[a.toNat]?) ∧
  (∀ a : Addr, 80 ≤ a.toNat → a.toNat < 180 → some (State.reset.readByte a) = fontBig[a.toNat - 80]?) ∧
  (∀ a : Addr, 180 ≤ a.toNat → State.reset.readByte a = Config.memInit a.toNat) ∧
  (∀ k : Fin 8, State.reset.userFlags[k] = Config.flagsInit k.val) ∧
  (∀ k : Fin 16, State.reset.audioBuffer[k] = Config.audioInit k.val) ∧ State.reset.quirks = Config.quirks
end

