-- ==== Sys2Proof/Laws/State.lean ====
section
/-! SUPPORT. What every field is after every update of Machine/Ops.lean: one lemma per field per update, true by definition,
so that no later proof unfolds an update. -/

namespace Sys2Proof.Machine

variable (s : State)

/-! ### writeV -/

@[simp] theorem State.writeV_V (r : Reg) (b : Byte) : (s.writeV r b).V = s.V.set r.toNat b := rfl
@[simp] theorem State.writeV_I (r : Reg) (b : Byte) : (s.writeV r b).I = s.I := rfl
@[simp] theorem State.writeV_pc (r : Reg) (b : Byte) : (s.writeV r b).pc = s.pc := rfl
@[simp] theorem State.writeV_sp (r : Reg) (b : Byte) : (s.writeV r b).sp = s.sp := rfl
@[simp] theorem State.writeV_stack (r : Reg) (b : Byte) : (s.writeV r b).stack = s.stack := rfl
@[simp] theorem State.writeV_delayTimer (r : Reg) (b : Byte) : (s.writeV r b).delayTimer = s.delayTimer := rfl
@[simp] theorem State.writeV_soundTimer (r : Reg) (b : Byte) : (s.writeV r b).soundTimer = s.soundTimer := rfl
@[simp] theorem State.writeV_hiRes (r : Reg) (b : Byte) : (s.writeV r b).hiRes = s.hiRes := rfl
@[simp] theorem State.writeV_bitPlaneSelect (r : Reg) (b : Byte) : (s.writeV r b).bitPlaneSelect = s.bitPlaneSelect := rfl
@[simp] theorem State.writeV_stopped (r : Reg) (b : Byte) : (s.writeV r b).stopped = s.stopped := rfl
@[simp] theorem State.writeV_waitingForKey (r : Reg) (b : Byte) : (s.writeV r b).waitingForKey = s.waitingForKey := rfl
@[simp] theorem State.writeV_waitRegister (r : Reg) (b : Byte) : (s.writeV r b).waitRegister = s.waitRegister := rfl
@[simp] theorem State.writeV_fault (r : Reg) (b : Byte) : (s.writeV r b).fault = s.fault := rfl
@[simp] theorem State.writeV_userFlags (r : Reg) (b : Byte) : (s.writeV r b).userFlags = s.userFlags := rfl
@[simp] theorem State.writeV_audioBuffer (r : Reg) (b : Byte) : (s.writeV r b).audioBuffer = s.audioBuffer := rfl
@[simp] theorem State.writeV_planes (r : Reg) (b : Byte) : (s.writeV r b).planes = s.planes := rfl
@[simp] theorem State.writeV_keys (r : Reg) (b : Byte) : (s.writeV r b).keys = s.keys := rfl
@[simp] theorem State.writeV_mem (r : Reg) (b : Byte) : (s.writeV r b).mem = s.mem := rfl
@[simp] theorem State.writeV_redraw (r : Reg) (b : Byte) : (s.writeV r b).redraw = s.redraw := rfl
@[simp] theorem State.writeV_quirks (r : Reg) (b : Byte) : (s.writeV r b).quirks = s.quirks := rfl
@[simp] theorem State.writeV_draws (r : Reg) (b : Byte) : (s.writeV r b).draws = s.draws := rfl
@[simp] theorem State.writeV_diag (r : Reg) (b : Byte) : (s.writeV r b).diag = s.diag := rfl

/-! ### setI -/

@[simp] theorem State.setI_V (a : Addr) : (s.setI a).V = s.V := rfl
@[simp] theorem State.setI_I (a : Addr) : (s.setI a).I = a := rfl
@[simp] theorem State.setI_pc (a : Addr) : (s.setI a).pc = s.pc := rfl
@[simp] theorem State.setI_sp (a : Addr) : (s.setI a).sp = s.sp := rfl
@[simp] theorem State.setI_stack (a : Addr) : (s.setI a).stack = s.stack := rfl
@[simp] theorem State.setI_delayTimer (a : Addr) : (s.setI a).delayTimer = s.delayTimer := rfl
@[simp] theorem State.setI_soundTimer (a : Addr) : (s.setI a).soundTimer = s.soundTimer := rfl
@[simp] theorem State.setI_hiRes (a : Addr) : (s.setI a).hiRes = s.hiRes := rfl
@[simp] theorem State.setI_bitPlaneSelect (a : Addr) : (s.setI a).bitPlaneSelect = s.bitPlaneSelect := rfl
@[simp] theorem State.setI_stopped (a : Addr) : (s.setI a).stopped = s.stopped := rfl
@[simp] theorem State.setI_waitingForKey (a : Addr) : (s.setI a).waitingForKey = s.waitingForKey := rfl
@[simp] theorem State.setI_waitRegister (a : Addr) : (s.setI a).waitRegister = s.waitRegister := rfl
@[simp] theorem State.setI_fault (a : Addr) : (s.setI a).fault = s.fault := rfl
@[simp] theorem State.setI_userFlags (a : Addr) : (s.setI a).userFlags = s.userFlags := rfl
@[simp] theorem State.setI_audioBuffer (a : Addr) : (s.setI a).audioBuffer = s.audioBuffer := rfl
@[simp] theorem State.setI_planes (a : Addr) : (s.setI a).planes = s.planes := rfl
@[simp] theorem State.setI_keys (a : Addr) : (s.setI a).keys = s.keys := rfl
@[simp] theorem State.setI_mem (a : Addr) : (s.setI a).mem = s.mem := rfl
@[simp] theorem State.setI_redraw (a : Addr) : (s.setI a).redraw = s.redraw := rfl
@[simp] theorem State.setI_quirks (a : Addr) : (s.setI a).quirks = s.quirks := rfl
@[simp] theorem State.setI_draws (a : Addr) : (s.setI a).draws = s.draws := rfl
@[simp] theorem State.setI_diag (a : Addr) : (s.setI a).diag = s.diag := rfl

/-! ### setPc -/

@[simp] theorem State.setPc_V (a : Addr) : (s.setPc a).V = s.V := rfl
@[simp] theorem State.setPc_I (a : Addr) : (s.setPc a).I = s.I := rfl
@[simp] theorem State.setPc_pc (a : Addr) : (s.setPc a).pc = a := rfl
@[simp] theorem State.setPc_sp (a : Addr) : (s.setPc a).sp = s.sp := rfl
@[simp] theorem State.setPc_stack (a : Addr) : (s.setPc a).stack = s.stack := rfl
@[simp] theorem State.setPc_delayTimer (a : Addr) : (s.setPc a).delayTimer = s.delayTimer := rfl
@[simp] theorem State.setPc_soundTimer (a : Addr) : (s.setPc a).soundTimer = s.soundTimer := rfl
@[simp] theorem State.setPc_hiRes (a : Addr) : (s.setPc a).hiRes = s.hiRes := rfl
@[simp] theorem State.setPc_bitPlaneSelect (a : Addr) : (s.setPc a).bitPlaneSelect = s.bitPlaneSelect := rfl
@[simp] theorem State.setPc_stopped (a : Addr) : (s.setPc a).stopped = s.stopped := rfl
@[simp] theorem State.setPc_waitingForKey (a : Addr) : (s.setPc a).waitingForKey = s.waitingForKey := rfl
@[simp] theorem State.setPc_waitRegister (a : Addr) : (s.setPc a).waitRegister = s.waitRegister := rfl
@[simp] theorem State.setPc_fault (a : Addr) : (s.setPc a).fault = s.fault := rfl
@[simp] theorem State.setPc_userFlags (a : Addr) : (s.setPc a).userFlags = s.userFlags := rfl
@[simp] theorem State.setPc_audioBuffer (a : Addr) : (s.setPc a).audioBuffer = s.audioBuffer := rfl
@[simp] theorem State.setPc_planes (a : Addr) : (s.setPc a).planes = s.planes := rfl
@[simp] theorem State.setPc_keys (a : Addr) : (s.setPc a).keys = s.keys := rfl
@[simp] theorem State.setPc_mem (a : Addr) : (s.setPc a).mem = s.mem := rfl
@[simp] theorem State.setPc_redraw (a : Addr) : (s.setPc a).redraw = s.redraw := rfl
@[simp] theorem State.setPc_quirks (a : Addr) : (s.setPc a).quirks = s.quirks := rfl
@[simp] theorem State.setPc_draws (a : Addr) : (s.setPc a).draws = s.draws := rfl
@[simp] theorem State.setPc_diag (a : Addr) : (s.setPc a).diag = s.diag := rfl

/-! ### setDelayTimer -/

@[simp] theorem State.setDelayTimer_V (b : Byte) : (s.setDelayTimer b).V = s.V := rfl
@[simp] theorem State.setDelayTimer_I (b : Byte) : (s.setDelayTimer b).I = s.I := rfl
@[simp] theorem State.setDelayTimer_pc (b : Byte) : (s.setDelayTimer b).pc = s.pc := rfl
@[simp] theorem State.setDelayTimer_sp (b : Byte) : (s.setDelayTimer b).sp = s.sp := rfl
@[simp] theorem State.setDelayTimer_stack (b : Byte) : (s.setDelayTimer b).stack = s.stack := rfl
@[simp] theorem State.setDelayTimer_delayTimer (b : Byte) : (s.setDelayTimer b).delayTimer = b := rfl
@[simp] theorem State.setDelayTimer_soundTimer (b : Byte) : (s.setDelayTimer b).soundTimer = s.soundTimer := rfl
@[simp] theorem State.setDelayTimer_hiRes (b : Byte) : (s.setDelayTimer b).hiRes = s.hiRes := rfl
@[simp] theorem State.setDelayTimer_bitPlaneSelect (b : Byte) : (s.setDelayTimer b).bitPlaneSelect = s.bitPlaneSelect := rfl
@[simp] theorem State.setDelayTimer_stopped (b : Byte) : (s.setDelayTimer b).stopped = s.stopped := rfl
@[simp] theorem State.setDelayTimer_waitingForKey (b : Byte) : (s.setDelayTimer b).waitingForKey = s.waitingForKey := rfl
@[simp] theorem State.setDelayTimer_waitRegister (b : Byte) : (s.setDelayTimer b).waitRegister = s.waitRegister := rfl
@[simp] theorem State.setDelayTimer_fault (b : Byte) : (s.setDelayTimer b).fault = s.fault := rfl
@[simp] theorem State.setDelayTimer_userFlags (b : Byte) : (s.setDelayTimer b).userFlags = s.userFlags := rfl
@[simp] theorem State.setDelayTimer_audioBuffer (b : Byte) : (s.setDelayTimer b).audioBuffer = s.audioBuffer := rfl
@[simp] theorem State.setDelayTimer_planes (b : Byte) : (s.setDelayTimer b).planes = s.planes := rfl
@[simp] theorem State.setDelayTimer_keys (b : Byte) : (s.setDelayTimer b).keys = s.keys := rfl
@[simp] theorem State.setDelayTimer_mem (b : Byte) : (s.setDelayTimer b).mem = s.mem := rfl
@[simp] theorem State.setDelayTimer_redraw (b : Byte) : (s.setDelayTimer b).redraw = s.redraw := rfl
@[simp] theorem State.setDelayTimer_quirks (b : Byte) : (s.setDelayTimer b).quirks = s.quirks := rfl
@[simp] theorem State.setDelayTimer_draws (b : Byte) : (s.setDelayTimer b).draws = s.draws := rfl
@[simp] theorem State.setDelayTimer_diag (b : Byte) : (s.setDelayTimer b).diag = s.diag := rfl

/-! ### setSoundTimer -/

@[simp] theorem State.setSoundTimer_V (b : Byte) : (s.setSoundTimer b).V = s.V := rfl
@[simp] theorem State.setSoundTimer_I (b : Byte) : (s.setSoundTimer b).I = s.I := rfl
@[simp] theorem State.setSoundTimer_pc (b : Byte) : (s.setSoundTimer b).pc = s.pc := rfl
@[simp] theorem State.setSoundTimer_sp (b : Byte) : (s.setSoundTimer b).sp = s.sp := rfl
@[simp] theorem State.setSoundTimer_stack (b : Byte) : (s.setSoundTimer b).stack = s.stack := rfl
@[simp] theorem State.setSoundTimer_delayTimer (b : Byte) : (s.setSoundTimer b).delayTimer = s.delayTimer := rfl
@[simp] theorem State.setSoundTimer_soundTimer (b : Byte) : (s.setSoundTimer b).soundTimer = b := rfl
@[simp] theorem State.setSoundTimer_hiRes (b : Byte) : (s.setSoundTimer b).hiRes = s.hiRes := rfl
@[simp] theorem State.setSoundTimer_bitPlaneSelect (b : Byte) : (s.setSoundTimer b).bitPlaneSelect = s.bitPlaneSelect := rfl
@[simp] theorem State.setSoundTimer_stopped (b : Byte) : (s.setSoundTimer b).stopped = s.stopped := rfl
@[simp] theorem State.setSoundTimer_waitingForKey (b : Byte) : (s.setSoundTimer b).waitingForKey = s.waitingForKey := rfl
@[simp] theorem State.setSoundTimer_waitRegister (b : Byte) : (s.setSoundTimer b).waitRegister = s.waitRegister := rfl
@[simp] theorem State.setSoundTimer_fault (b : Byte) : (s.setSoundTimer b).fault = s.fault := rfl
@[simp] theorem State.setSoundTimer_userFlags (b : Byte) : (s.setSoundTimer b).userFlags = s.userFlags := rfl
@[simp] theorem State.setSoundTimer_audioBuffer (b : Byte) : (s.setSoundTimer b).audioBuffer = s.audioBuffer := rfl
@[simp] theorem State.setSoundTimer_planes (b : Byte) : (s.setSoundTimer b).planes = s.planes := rfl
@[simp] theorem State.setSoundTimer_keys (b : Byte) : (s.setSoundTimer b).keys = s.keys := rfl
@[simp] theorem State.setSoundTimer_mem (b : Byte) : (s.setSoundTimer b).mem = s.mem := rfl
@[simp] theorem State.setSoundTimer_redraw (b : Byte) : (s.setSoundTimer b).redraw = s.redraw := rfl
@[simp] theorem State.setSoundTimer_quirks (b : Byte) : (s.setSoundTimer b).quirks = s.quirks := rfl
@[simp] theorem State.setSoundTimer_draws (b : Byte) : (s.setSoundTimer b).draws = s.draws := rfl
@[simp] theorem State.setSoundTimer_diag (b : Byte) : (s.setSoundTimer b).diag = s.diag := rfl

/-! ### setHiRes -/

@[simp] theorem State.setHiRes_V (h : Bool) : (s.setHiRes h).V = s.V := rfl
@[simp] theorem State.setHiRes_I (h : Bool) : (s.setHiRes h).I = s.I := rfl
@[simp] theorem State.setHiRes_pc (h : Bool) : (s.setHiRes h).pc = s.pc := rfl
@[simp] theorem State.setHiRes_sp (h : Bool) : (s.setHiRes h).sp = s.sp := rfl
@[simp] theorem State.setHiRes_stack (h : Bool) : (s.setHiRes h).stack = s.stack := rfl
@[simp] theorem State.setHiRes_delayTimer (h : Bool) : (s.setHiRes h).delayTimer = s.delayTimer := rfl
@[simp] theorem State.setHiRes_soundTimer (h : Bool) : (s.setHiRes h).soundTimer = s.soundTimer := rfl
@[simp] theorem State.setHiRes_hiRes (h : Bool) : (s.setHiRes h).hiRes = h := rfl
@[simp] theorem State.setHiRes_bitPlaneSelect (h : Bool) : (s.setHiRes h).bitPlaneSelect = s.bitPlaneSelect := rfl
@[simp] theorem State.setHiRes_stopped (h : Bool) : (s.setHiRes h).stopped = s.stopped := rfl
@[simp] theorem State.setHiRes_waitingForKey (h : Bool) : (s.setHiRes h).waitingForKey = s.waitingForKey := rfl
@[simp] theorem State.setHiRes_waitRegister (h : Bool) : (s.setHiRes h).waitRegister = s.waitRegister := rfl
@[simp] theorem State.setHiRes_fault (h : Bool) : (s.setHiRes h).fault = s.fault := rfl
@[simp] theorem State.setHiRes_userFlags (h : Bool) : (s.setHiRes h).userFlags = s.userFlags := rfl
@[simp] theorem State.setHiRes_audioBuffer (h : Bool) : (s.setHiRes h).audioBuffer = s.audioBuffer := rfl
@[simp] theorem State.setHiRes_planes (h : Bool) : (s.setHiRes h).planes = s.planes := rfl
@[simp] theorem State.setHiRes_keys (h : Bool) : (s.setHiRes h).keys = s.keys := rfl
@[simp] theorem State.setHiRes_mem (h : Bool) : (s.setHiRes h).mem = s.mem := rfl
@[simp] theorem State.setHiRes_redraw (h : Bool) : (s.setHiRes h).redraw = s.redraw := rfl
@[simp] theorem State.setHiRes_quirks (h : Bool) : (s.setHiRes h).quirks = s.quirks := rfl
@[simp] theorem State.setHiRes_draws (h : Bool) : (s.setHiRes h).draws = s.draws := rfl
@[simp] theorem State.setHiRes_diag (h : Bool) : (s.setHiRes h).diag = s.diag := rfl

/-! ### setPlaneSelect -/

@[simp] theorem State.setPlaneSelect_V (m : BitVec 2) : (s.setPlaneSelect m).V = s.V := rfl
@[simp] theorem State.setPlaneSelect_I (m : BitVec 2) : (s.setPlaneSelect m).I = s.I := rfl
@[simp] theorem State.setPlaneSelect_pc (m : BitVec 2) : (s.setPlaneSelect m).pc = s.pc := rfl
@[simp] theorem State.setPlaneSelect_sp (m : BitVec 2) : (s.setPlaneSelect m).sp = s.sp := rfl
@[simp] theorem State.setPlaneSelect_stack (m : BitVec 2) : (s.setPlaneSelect m).stack = s.stack := rfl
@[simp] theorem State.setPlaneSelect_delayTimer (m : BitVec 2) : (s.setPlaneSelect m).delayTimer = s.delayTimer := rfl
@[simp] theorem State.setPlaneSelect_soundTimer (m : BitVec 2) : (s.setPlaneSelect m).soundTimer = s.soundTimer := rfl
@[simp] theorem State.setPlaneSelect_hiRes (m : BitVec 2) : (s.setPlaneSelect m).hiRes = s.hiRes := rfl
@[simp] theorem State.setPlaneSelect_bitPlaneSelect (m : BitVec 2) : (s.setPlaneSelect m).bitPlaneSelect = m := rfl
@[simp] theorem State.setPlaneSelect_stopped (m : BitVec 2) : (s.setPlaneSelect m).stopped = s.stopped := rfl
@[simp] theorem State.setPlaneSelect_waitingForKey (m : BitVec 2) : (s.setPlaneSelect m).waitingForKey = s.waitingForKey := rfl
@[simp] theorem State.setPlaneSelect_waitRegister (m : BitVec 2) : (s.setPlaneSelect m).waitRegister = s.waitRegister := rfl
@[simp] theorem State.setPlaneSelect_fault (m : BitVec 2) : (s.setPlaneSelect m).fault = s.fault := rfl
@[simp] theorem State.setPlaneSelect_userFlags (m : BitVec 2) : (s.setPlaneSelect m).userFlags = s.userFlags := rfl
@[simp] theorem State.setPlaneSelect_audioBuffer (m : BitVec 2) : (s.setPlaneSelect m).audioBuffer = s.audioBuffer := rfl
@[simp] theorem State.setPlaneSelect_planes (m : BitVec 2) : (s.setPlaneSelect m).planes = s.planes := rfl
@[simp] theorem State.setPlaneSelect_keys (m : BitVec 2) : (s.setPlaneSelect m).keys = s.keys := rfl
@[simp] theorem State.setPlaneSelect_mem (m : BitVec 2) : (s.setPlaneSelect m).mem = s.mem := rfl
@[simp] theorem State.setPlaneSelect_redraw (m : BitVec 2) : (s.setPlaneSelect m).redraw = s.redraw := rfl
@[simp] theorem State.setPlaneSelect_quirks (m : BitVec 2) : (s.setPlaneSelect m).quirks = s.quirks := rfl
@[simp] theorem State.setPlaneSelect_draws (m : BitVec 2) : (s.setPlaneSelect m).draws = s.draws := rfl
@[simp] theorem State.setPlaneSelect_diag (m : BitVec 2) : (s.setPlaneSelect m).diag = s.diag := rfl

/-! ### stop -/

@[simp] theorem State.stop_V : s.stop.V = s.V := rfl
@[simp] theorem State.stop_I : s.stop.I = s.I := rfl
@[simp] theorem State.stop_pc : s.stop.pc = s.pc := rfl
@[simp] theorem State.stop_sp : s.stop.sp = s.sp := rfl
@[simp] theorem State.stop_stack : s.stop.stack = s.stack := rfl
@[simp] theorem State.stop_delayTimer : s.stop.delayTimer = s.delayTimer := rfl
@[simp] theorem State.stop_soundTimer : s.stop.soundTimer = s.soundTimer := rfl
@[simp] theorem State.stop_hiRes : s.stop.hiRes = s.hiRes := rfl
@[simp] theorem State.stop_bitPlaneSelect : s.stop.bitPlaneSelect = s.bitPlaneSelect := rfl
@[simp] theorem State.stop_stopped : s.stop.stopped = true := rfl
@[simp] theorem State.stop_waitingForKey : s.stop.waitingForKey = s.waitingForKey := rfl
@[simp] theorem State.stop_waitRegister : s.stop.waitRegister = s.waitRegister := rfl
@[simp] theorem State.stop_fault : s.stop.fault = s.fault := rfl
@[simp] theorem State.stop_userFlags : s.stop.userFlags = s.userFlags := rfl
@[simp] theorem State.stop_audioBuffer : s.stop.audioBuffer = s.audioBuffer := rfl
@[simp] theorem State.stop_planes : s.stop.planes = s.planes := rfl
@[simp] theorem State.stop_keys : s.stop.keys = s.keys := rfl
@[simp] theorem State.stop_mem : s.stop.mem = s.mem := rfl
@[simp] theorem State.stop_redraw : s.stop.redraw = s.redraw := rfl
@[simp] theorem State.stop_quirks : s.stop.quirks = s.quirks := rfl
@[simp] theorem State.stop_draws : s.stop.draws = s.draws := rfl
@[simp] theorem State.stop_diag : s.stop.diag = s.diag := rfl

/-! ### armWait -/

@[simp] theorem State.armWait_V (r : Reg) : (s.armWait r).V = s.V := rfl
@[simp] theorem State.armWait_I (r : Reg) : (s.armWait r).I = s.I := rfl
@[simp] theorem State.armWait_pc (r : Reg) : (s.armWait r).pc = s.pc := rfl
@[simp] theorem State.armWait_sp (r : Reg) : (s.armWait r).sp = s.sp := rfl
@[simp] theorem State.armWait_stack (r : Reg) : (s.armWait r).stack = s.stack := rfl
@[simp] theorem State.armWait_delayTimer (r : Reg) : (s.armWait r).delayTimer = s.delayTimer := rfl
@[simp] theorem State.armWait_soundTimer (r : Reg) : (s.armWait r).soundTimer = s.soundTimer := rfl
@[simp] theorem State.armWait_hiRes (r : Reg) : (s.armWait r).hiRes = s.hiRes := rfl
@[simp] theorem State.armWait_bitPlaneSelect (r : Reg) : (s.armWait r).bitPlaneSelect = s.bitPlaneSelect := rfl
@[simp] theorem State.armWait_stopped (r : Reg) : (s.armWait r).stopped = s.stopped := rfl
@[simp] theorem State.armWait_waitingForKey (r : Reg) : (s.armWait r).waitingForKey = true := rfl
@[simp] theorem State.armWait_waitRegister (r : Reg) : (s.armWait r).waitRegister = r := rfl
@[simp] theorem State.armWait_fault (r : Reg) : (s.armWait r).fault = s.fault := rfl
@[simp] theorem State.armWait_userFlags (r : Reg) : (s.armWait r).userFlags = s.userFlags := rfl
@[simp] theorem State.armWait_audioBuffer (r : Reg) : (s.armWait r).audioBuffer = s.audioBuffer := rfl
@[simp] theorem State.armWait_planes (r : Reg) : (s.armWait r).planes = s.planes := rfl
@[simp] theorem State.armWait_keys (r : Reg) : (s.armWait r).keys = s.keys := rfl
@[simp] theorem State.armWait_mem (r : Reg) : (s.armWait r).mem = s.mem := rfl
@[simp] theorem State.armWait_redraw (r : Reg) : (s.armWait r).redraw = s.redraw := rfl
@[simp] theorem State.armWait_quirks (r : Reg) : (s.armWait r).quirks = s.quirks := rfl
@[simp] theorem State.armWait_draws (r : Reg) : (s.armWait r).draws = s.draws := rfl
@[simp] theorem State.armWait_diag (r : Reg) : (s.armWait r).diag = s.diag := rfl

/-! ### setFault -/

@[simp] theorem State.setFault_V (f : FaultRecord) : (s.setFault f).V = s.V := rfl
@[simp] theorem State.setFault_I (f : FaultRecord) : (s.setFault f).I = s.I := rfl
@[simp] theorem State.setFault_pc (f : FaultRecord) : (s.setFault f).pc = s.pc := rfl
@[simp] theorem State.setFault_sp (f : FaultRecord) : (s.setFault f).sp = s.sp := rfl
@[simp] theorem State.setFault_stack (f : FaultRecord) : (s.setFault f).stack = s.stack := rfl
@[simp] theorem State.setFault_delayTimer (f : FaultRecord) : (s.setFault f).delayTimer = s.delayTimer := rfl
@[simp] theorem State.setFault_soundTimer (f : FaultRecord) : (s.setFault f).soundTimer = s.soundTimer := rfl
@[simp] theorem State.setFault_hiRes (f : FaultRecord) : (s.setFault f).hiRes = s.hiRes := rfl
@[simp] theorem State.setFault_bitPlaneSelect (f : FaultRecord) : (s.setFault f).bitPlaneSelect = s.bitPlaneSelect := rfl
@[simp] theorem State.setFault_stopped (f : FaultRecord) : (s.setFault f).stopped = s.stopped := rfl
@[simp] theorem State.setFault_waitingForKey (f : FaultRecord) : (s.setFault f).waitingForKey = s.waitingForKey := rfl
@[simp] theorem State.setFault_waitRegister (f : FaultRecord) : (s.setFault f).waitRegister = s.waitRegister := rfl
@[simp] theorem State.setFault_fault (f : FaultRecord) : (s.setFault f).fault = f := rfl
@[simp] theorem State.setFault_userFlags (f : FaultRecord) : (s.setFault f).userFlags = s.userFlags := rfl
@[simp] theorem State.setFault_audioBuffer (f : FaultRecord) : (s.setFault f).audioBuffer = s.audioBuffer := rfl
@[simp] theorem State.setFault_planes (f : FaultRecord) : (s.setFault f).planes = s.planes := rfl
@[simp] theorem State.setFault_keys (f : FaultRecord) : (s.setFault f).keys = s.keys := rfl
@[simp] theorem State.setFault_mem (f : FaultRecord) : (s.setFault f).mem = s.mem := rfl
@[simp] theorem State.setFault_redraw (f : FaultRecord) : (s.setFault f).redraw = s.redraw := rfl
@[simp] theorem State.setFault_quirks (f : FaultRecord) : (s.setFault f).quirks = s.quirks := rfl
@[simp] theorem State.setFault_draws (f : FaultRecord) : (s.setFault f).draws = s.draws := rfl
@[simp] theorem State.setFault_diag (f : FaultRecord) : (s.setFault f).diag = s.diag := rfl

/-! ### writeFlag -/

@[simp] theorem State.writeFlag_V (k : Nat) (b : Byte) : (s.writeFlag k b).V = s.V := rfl
@[simp] theorem State.writeFlag_I (k : Nat) (b : Byte) : (s.writeFlag k b).I = s.I := rfl
@[simp] theorem State.writeFlag_pc (k : Nat) (b : Byte) : (s.writeFlag k b).pc = s.pc := rfl
@[simp] theorem State.writeFlag_sp (k : Nat) (b : Byte) : (s.writeFlag k b).sp = s.sp := rfl
@[simp] theorem State.writeFlag_stack (k : Nat) (b : Byte) : (s.writeFlag k b).stack = s.stack := rfl
@[simp] theorem State.writeFlag_delayTimer (k : Nat) (b : Byte) : (s.writeFlag k b).delayTimer = s.delayTimer := rfl
@[simp] theorem State.writeFlag_soundTimer (k : Nat) (b : Byte) : (s.writeFlag k b).soundTimer = s.soundTimer := rfl
@[simp] theorem State.writeFlag_hiRes (k : Nat) (b : Byte) : (s.writeFlag k b).hiRes = s.hiRes := rfl
@[simp] theorem State.writeFlag_bitPlaneSelect (k : Nat) (b : Byte) : (s.writeFlag k b).bitPlaneSelect = s.bitPlaneSelect := rfl
@[simp] theorem State.writeFlag_stopped (k : Nat) (b : Byte) : (s.writeFlag k b).stopped = s.stopped := rfl
@[simp] theorem State.writeFlag_waitingForKey (k : Nat) (b : Byte) : (s.writeFlag k b).waitingForKey = s.waitingForKey := rfl
@[simp] theorem State.writeFlag_waitRegister (k : Nat) (b : Byte) : (s.writeFlag k b).waitRegister = s.waitRegister := rfl
@[simp] theorem State.writeFlag_fault (k : Nat) (b : Byte) : (s.writeFlag k b).fault = s.fault := rfl
@[simp] theorem State.writeFlag_userFlags (k : Nat) (b : Byte) : (s.writeFlag k b).userFlags = s.userFlags.setIfInBounds k b := rfl
@[simp] theorem State.writeFlag_audioBuffer (k : Nat) (b : Byte) : (s.writeFlag k b).audioBuffer = s.audioBuffer := rfl
@[simp] theorem State.writeFlag_planes (k : Nat) (b : Byte) : (s.writeFlag k b).planes = s.planes := rfl
@[simp] theorem State.writeFlag_keys (k : Nat) (b : Byte) : (s.writeFlag k b).keys = s.keys := rfl
@[simp] theorem State.writeFlag_mem (k : Nat) (b : Byte) : (s.writeFlag k b).mem = s.mem := rfl
@[simp] theorem State.writeFlag_redraw (k : Nat) (b : Byte) : (s.writeFlag k b).redraw = s.redraw := rfl
@[simp] theorem State.writeFlag_quirks (k : Nat) (b : Byte) : (s.writeFlag k b).quirks = s.quirks := rfl
@[simp] theorem State.writeFlag_draws (k : Nat) (b : Byte) : (s.writeFlag k b).draws = s.draws := rfl
@[simp] theorem State.writeFlag_diag (k : Nat) (b : Byte) : (s.writeFlag k b).diag = s.diag := rfl

/-! ### setAudio -/

@[simp] theorem State.setAudio_V (a : Vector Byte 16) : (s.setAudio a).V = s.V := rfl
@[simp] theorem State.setAudio_I (a : Vector Byte 16) : (s.setAudio a).I = s.I := rfl
@[simp] theorem State.setAudio_pc (a : Vector Byte 16) : (s.setAudio a).pc = s.pc := rfl
@[simp] theorem State.setAudio_sp (a : Vector Byte 16) : (s.setAudio a).sp = s.sp := rfl
@[simp] theorem State.setAudio_stack (a : Vector Byte 16) : (s.setAudio a).stack = s.stack := rfl
@[simp] theorem State.setAudio_delayTimer (a : Vector Byte 16) : (s.setAudio a).delayTimer = s.delayTimer := rfl
@[simp] theorem State.setAudio_soundTimer (a : Vector Byte 16) : (s.setAudio a).soundTimer = s.soundTimer := rfl
@[simp] theorem State.setAudio_hiRes (a : Vector Byte 16) : (s.setAudio a).hiRes = s.hiRes := rfl
@[simp] theorem State.setAudio_bitPlaneSelect (a : Vector Byte 16) : (s.setAudio a).bitPlaneSelect = s.bitPlaneSelect := rfl
@[simp] theorem State.setAudio_stopped (a : Vector Byte 16) : (s.setAudio a).stopped = s.stopped := rfl
@[simp] theorem State.setAudio_waitingForKey (a : Vector Byte 16) : (s.setAudio a).waitingForKey = s.waitingForKey := rfl
@[simp] theorem State.setAudio_waitRegister (a : Vector Byte 16) : (s.setAudio a).waitRegister = s.waitRegister := rfl
@[simp] theorem State.setAudio_fault (a : Vector Byte 16) : (s.setAudio a).fault = s.fault := rfl
@[simp] theorem State.setAudio_userFlags (a : Vector Byte 16) : (s.setAudio a).userFlags = s.userFlags := rfl
@[simp] theorem State.setAudio_audioBuffer (a : Vector Byte 16) : (s.setAudio a).audioBuffer = a := rfl
@[simp] theorem State.setAudio_planes (a : Vector Byte 16) : (s.setAudio a).planes = s.planes := rfl
@[simp] theorem State.setAudio_keys (a : Vector Byte 16) : (s.setAudio a).keys = s.keys := rfl
@[simp] theorem State.setAudio_mem (a : Vector Byte 16) : (s.setAudio a).mem = s.mem := rfl
@[simp] theorem State.setAudio_redraw (a : Vector Byte 16) : (s.setAudio a).redraw = s.redraw := rfl
@[simp] theorem State.setAudio_quirks (a : Vector Byte 16) : (s.setAudio a).quirks = s.quirks := rfl
@[simp] theorem State.setAudio_draws (a : Vector Byte 16) : (s.setAudio a).draws = s.draws := rfl
@[simp] theorem State.setAudio_diag (a : Vector Byte 16) : (s.setAudio a).diag = s.diag := rfl

/-! ### setKeys -/

@[simp] theorem State.setKeys_V (k : BitVec 16) : (s.setKeys k).V = s.V := rfl
@[simp] theorem State.setKeys_I (k : BitVec 16) : (s.setKeys k).I = s.I := rfl
@[simp] theorem State.setKeys_pc (k : BitVec 16) : (s.setKeys k).pc = s.pc := rfl
@[simp] theorem State.setKeys_sp (k : BitVec 16) : (s.setKeys k).sp = s.sp := rfl
@[simp] theorem State.setKeys_stack (k : BitVec 16) : (s.setKeys k).stack = s.stack := rfl
@[simp] theorem State.setKeys_delayTimer (k : BitVec 16) : (s.setKeys k).delayTimer = s.delayTimer := rfl
@[simp] theorem State.setKeys_soundTimer (k : BitVec 16) : (s.setKeys k).soundTimer = s.soundTimer := rfl
@[simp] theorem State.setKeys_hiRes (k : BitVec 16) : (s.setKeys k).hiRes = s.hiRes := rfl
@[simp] theorem State.setKeys_bitPlaneSelect (k : BitVec 16) : (s.setKeys k).bitPlaneSelect = s.bitPlaneSelect := rfl
@[simp] theorem State.setKeys_stopped (k : BitVec 16) : (s.setKeys k).stopped = s.stopped := rfl
@[simp] theorem State.setKeys_waitingForKey (k : BitVec 16) : (s.setKeys k).waitingForKey = s.waitingForKey := rfl
@[simp] theorem State.setKeys_waitRegister (k : BitVec 16) : (s.setKeys k).waitRegister = s.waitRegister := rfl
@[simp] theorem State.setKeys_fault (k : BitVec 16) : (s.setKeys k).fault = s.fault := rfl
@[simp] theorem State.setKeys_userFlags (k : BitVec 16) : (s.setKeys k).userFlags = s.userFlags := rfl
@[simp] theorem State.setKeys_audioBuffer (k : BitVec 16) : (s.setKeys k).audioBuffer = s.audioBuffer := rfl
@[simp] theorem State.setKeys_planes (k : BitVec 16) : (s.setKeys k).planes = s.planes := rfl
@[simp] theorem State.setKeys_keys (k : BitVec 16) : (s.setKeys k).keys = k := rfl
@[simp] theorem State.setKeys_mem (k : BitVec 16) : (s.setKeys k).mem = s.mem := rfl
@[simp] theorem State.setKeys_redraw (k : BitVec 16) : (s.setKeys k).redraw = s.redraw := rfl
@[simp] theorem State.setKeys_quirks (k : BitVec 16) : (s.setKeys k).quirks = s.quirks := rfl
@[simp] theorem State.setKeys_draws (k : BitVec 16) : (s.setKeys k).draws = s.draws := rfl
@[simp] theorem State.setKeys_diag (k : BitVec 16) : (s.setKeys k).diag = s.diag := rfl

/-! ### setQuirks -/

@[simp] theorem State.setQuirks_V (q : Quirks) : (s.setQuirks q).V = s.V := rfl
@[simp] theorem State.setQuirks_I (q : Quirks) : (s.setQuirks q).I = s.I := rfl
@[simp] theorem State.setQuirks_pc (q : Quirks) : (s.setQuirks q).pc = s.pc := rfl
@[simp] theorem State.setQuirks_sp (q : Quirks) : (s.setQuirks q).sp = s.sp := rfl
@[simp] theorem State.setQuirks_stack (q : Quirks) : (s.setQuirks q).stack = s.stack := rfl
@[simp] theorem State.setQuirks_delayTimer (q : Quirks) : (s.setQuirks q).delayTimer = s.delayTimer := rfl
@[simp] theorem State.setQuirks_soundTimer (q : Quirks) : (s.setQuirks q).soundTimer = s.soundTimer := rfl
@[simp] theorem State.setQuirks_hiRes (q : Quirks) : (s.setQuirks q).hiRes = s.hiRes := rfl
@[simp] theorem State.setQuirks_bitPlaneSelect (q : Quirks) : (s.setQuirks q).bitPlaneSelect = s.bitPlaneSelect := rfl
@[simp] theorem State.setQuirks_stopped (q : Quirks) : (s.setQuirks q).stopped = s.stopped := rfl
@[simp] theorem State.setQuirks_waitingForKey (q : Quirks) : (s.setQuirks q).waitingForKey = s.waitingForKey := rfl
@[simp] theorem State.setQuirks_waitRegister (q : Quirks) : (s.setQuirks q).waitRegister = s.waitRegister := rfl
@[simp] theorem State.setQuirks_fault (q : Quirks) : (s.setQuirks q).fault = s.fault := rfl
@[simp] theorem State.setQuirks_userFlags (q : Quirks) : (s.setQuirks q).userFlags = s.userFlags := rfl
@[simp] theorem State.setQuirks_audioBuffer (q : Quirks) : (s.setQuirks q).audioBuffer = s.audioBuffer := rfl
@[simp] theorem State.setQuirks_planes (q : Quirks) : (s.setQuirks q).planes = s.planes := rfl
@[simp] theorem State.setQuirks_keys (q : Quirks) : (s.setQuirks q).keys = s.keys := rfl
@[simp] theorem State.setQuirks_mem (q : Quirks) : (s.setQuirks q).mem = s.mem := rfl
@[simp] theorem State.setQuirks_redraw (q : Quirks) : (s.setQuirks q).redraw = s.redraw := rfl
@[simp] theorem State.setQuirks_quirks (q : Quirks) : (s.setQuirks q).quirks = q := rfl
@[simp] theorem State.setQuirks_draws (q : Quirks) : (s.setQuirks q).draws = s.draws := rfl
@[simp] theorem State.setQuirks_diag (q : Quirks) : (s.setQuirks q).diag = s.diag := rfl

/-! ### markRedraw -/

@[simp] theorem State.markRedraw_V : s.markRedraw.V = s.V := rfl
@[simp] theorem State.markRedraw_I : s.markRedraw.I = s.I := rfl
@[simp] theorem State.markRedraw_pc : s.markRedraw.pc = s.pc := rfl
@[simp] theorem State.markRedraw_sp : s.markRedraw.sp = s.sp := rfl
@[simp] theorem State.markRedraw_stack : s.markRedraw.stack = s.stack := rfl
@[simp] theorem State.markRedraw_delayTimer : s.markRedraw.delayTimer = s.delayTimer := rfl
@[simp] theorem State.markRedraw_soundTimer : s.markRedraw.soundTimer = s.soundTimer := rfl
@[simp] theorem State.markRedraw_hiRes : s.markRedraw.hiRes = s.hiRes := rfl
@[simp] theorem State.markRedraw_bitPlaneSelect : s.markRedraw.bitPlaneSelect = s.bitPlaneSelect := rfl
@[simp] theorem State.markRedraw_stopped : s.markRedraw.stopped = s.stopped := rfl
@[simp] theorem State.markRedraw_waitingForKey : s.markRedraw.waitingForKey = s.waitingForKey := rfl
@[simp] theorem State.markRedraw_waitRegister : s.markRedraw.waitRegister = s.waitRegister := rfl
@[simp] theorem State.markRedraw_fault : s.markRedraw.fault = s.fault := rfl
@[simp] theorem State.markRedraw_userFlags : s.markRedraw.userFlags = s.userFlags := rfl
@[simp] theorem State.markRedraw_audioBuffer : s.markRedraw.audioBuffer = s.audioBuffer := rfl
@[simp] theorem State.markRedraw_planes : s.markRedraw.planes = s.planes := rfl
@[simp] theorem State.markRedraw_keys : s.markRedraw.keys = s.keys := rfl
@[simp] theorem State.markRedraw_mem : s.markRedraw.mem = s.mem := rfl
@[simp] theorem State.markRedraw_redraw : s.markRedraw.redraw = true := rfl
@[simp] theorem State.markRedraw_quirks : s.markRedraw.quirks = s.quirks := rfl
@[simp] theorem State.markRedraw_draws : s.markRedraw.draws = s.draws := rfl
@[simp] theorem State.markRedraw_diag : s.markRedraw.diag = s.diag := rfl

/-! ### clearRedraw -/

@[simp] theorem State.clearRedraw_V : s.clearRedraw.V = s.V := rfl
@[simp] theorem State.clearRedraw_I : s.clearRedraw.I = s.I := rfl
@[simp] theorem State.clearRedraw_pc : s.clearRedraw.pc = s.pc := rfl
@[simp] theorem State.clearRedraw_sp : s.clearRedraw.sp = s.sp := rfl
@[simp] theorem State.clearRedraw_stack : s.clearRedraw.stack = s.stack := rfl
@[simp] theorem State.clearRedraw_delayTimer : s.clearRedraw.delayTimer = s.delayTimer := rfl
@[simp] theorem State.clearRedraw_soundTimer : s.clearRedraw.soundTimer = s.soundTimer := rfl
@[simp] theorem State.clearRedraw_hiRes : s.clearRedraw.hiRes = s.hiRes := rfl
@[simp] theorem State.clearRedraw_bitPlaneSelect : s.clearRedraw.bitPlaneSelect = s.bitPlaneSelect := rfl
@[simp] theorem State.clearRedraw_stopped : s.clearRedraw.stopped = s.stopped := rfl
@[simp] theorem State.clearRedraw_waitingForKey : s.clearRedraw.waitingForKey = s.waitingForKey := rfl
@[simp] theorem State.clearRedraw_waitRegister : s.clearRedraw.waitRegister = s.waitRegister := rfl
@[simp] theorem State.clearRedraw_fault : s.clearRedraw.fault = s.fault := rfl
@[simp] theorem State.clearRedraw_userFlags : s.clearRedraw.userFlags = s.userFlags := rfl
@[simp] theorem State.clearRedraw_audioBuffer : s.clearRedraw.audioBuffer = s.audioBuffer := rfl
@[simp] theorem State.clearRedraw_planes : s.clearRedraw.planes = s.planes := rfl
@[simp] theorem State.clearRedraw_keys : s.clearRedraw.keys = s.keys := rfl
@[simp] theorem State.clearRedraw_mem : s.clearRedraw.mem = s.mem := rfl
@[simp] theorem State.clearRedraw_redraw : s.clearRedraw.redraw = false := rfl
@[simp] theorem State.clearRedraw_quirks : s.clearRedraw.quirks = s.quirks := rfl
@[simp] theorem State.clearRedraw_draws : s.clearRedraw.draws = s.draws := rfl
@[simp] theorem State.clearRedraw_diag : s.clearRedraw.diag = s.diag := rfl

/-! ### countDraw -/

@[simp] theorem State.countDraw_V : s.countDraw.V = s.V := rfl
@[simp] theorem State.countDraw_I : s.countDraw.I = s.I := rfl
@[simp] theorem State.countDraw_pc : s.countDraw.pc = s.pc := rfl
@[simp] theorem State.countDraw_sp : s.countDraw.sp = s.sp := rfl
@[simp] theorem State.countDraw_stack : s.countDraw.stack = s.stack := rfl
@[simp] theorem State.countDraw_delayTimer : s.countDraw.delayTimer = s.delayTimer := rfl
@[simp] theorem State.countDraw_soundTimer : s.countDraw.soundTimer = s.soundTimer := rfl
@[simp] theorem State.countDraw_hiRes : s.countDraw.hiRes = s.hiRes := rfl
@[simp] theorem State.countDraw_bitPlaneSelect : s.countDraw.bitPlaneSelect = s.bitPlaneSelect := rfl
@[simp] theorem State.countDraw_stopped : s.countDraw.stopped = s.stopped := rfl
@[simp] theorem State.countDraw_waitingForKey : s.countDraw.waitingForKey = s.waitingForKey := rfl
@[simp] theorem State.countDraw_waitRegister : s.countDraw.waitRegister = s.waitRegister := rfl
@[simp] theorem State.countDraw_fault : s.countDraw.fault = s.fault := rfl
@[simp] theorem State.countDraw_userFlags : s.countDraw.userFlags = s.userFlags := rfl
@[simp] theorem State.countDraw_audioBuffer : s.countDraw.audioBuffer = s.audioBuffer := rfl
@[simp] theorem State.countDraw_planes : s.countDraw.planes = s.planes := rfl
@[simp] theorem State.countDraw_keys : s.countDraw.keys = s.keys := rfl
@[simp] theorem State.countDraw_mem : s.countDraw.mem = s.mem := rfl
@[simp] theorem State.countDraw_redraw : s.countDraw.redraw = s.redraw := rfl
@[simp] theorem State.countDraw_quirks : s.countDraw.quirks = s.quirks := rfl
@[simp] theorem State.countDraw_draws : s.countDraw.draws = s.draws + 1 := rfl
@[simp] theorem State.countDraw_diag : s.countDraw.diag = s.diag := rfl

/-! ### writeByte -/

@[simp] theorem State.writeByte_V (a : Addr) (b : Byte) : (s.writeByte a b).V = s.V := rfl
@[simp] theorem State.writeByte_I (a : Addr) (b : Byte) : (s.writeByte a b).I = s.I := rfl
@[simp] theorem State.writeByte_pc (a : Addr) (b : Byte) : (s.writeByte a b).pc = s.pc := rfl
@[simp] theorem State.writeByte_sp (a : Addr) (b : Byte) : (s.writeByte a b).sp = s.sp := rfl
@[simp] theorem State.writeByte_stack (a : Addr) (b : Byte) : (s.writeByte a b).stack = s.stack := rfl
@[simp] theorem State.writeByte_delayTimer (a : Addr) (b : Byte) : (s.writeByte a b).delayTimer = s.delayTimer := rfl
@[simp] theorem State.writeByte_soundTimer (a : Addr) (b : Byte) : (s.writeByte a b).soundTimer = s.soundTimer := rfl
@[simp] theorem State.writeByte_hiRes (a : Addr) (b : Byte) : (s.writeByte a b).hiRes = s.hiRes := rfl
@[simp] theorem State.writeByte_bitPlaneSelect (a : Addr) (b : Byte) : (s.writeByte a b).bitPlaneSelect = s.bitPlaneSelect := rfl
@[simp] theorem State.writeByte_stopped (a : Addr) (b : Byte) : (s.writeByte a b).stopped = s.stopped := rfl
@[simp] theorem State.writeByte_waitingForKey (a : Addr) (b : Byte) : (s.writeByte a b).waitingForKey = s.waitingForKey := rfl
@[simp] theorem State.writeByte_waitRegister (a : Addr) (b : Byte) : (s.writeByte a b).waitRegister = s.waitRegister := rfl
@[simp] theorem State.writeByte_fault (a : Addr) (b : Byte) : (s.writeByte a b).fault = s.fault := rfl
@[simp] theorem State.writeByte_userFlags (a : Addr) (b : Byte) : (s.writeByte a b).userFlags = s.userFlags := rfl
@[simp] theorem State.writeByte_audioBuffer (a : Addr) (b : Byte) : (s.writeByte a b).audioBuffer = s.audioBuffer := rfl
@[simp] theorem State.writeByte_planes (a : Addr) (b : Byte) : (s.writeByte a b).planes = s.planes := rfl
@[simp] theorem State.writeByte_keys (a : Addr) (b : Byte) : (s.writeByte a b).keys = s.keys := rfl
@[simp] theorem State.writeByte_mem (a : Addr) (b : Byte) : (s.writeByte a b).mem = s.mem.write a.toNat b := rfl
@[simp] theorem State.writeByte_redraw (a : Addr) (b : Byte) : (s.writeByte a b).redraw = s.redraw := rfl
@[simp] theorem State.writeByte_quirks (a : Addr) (b : Byte) : (s.writeByte a b).quirks = s.quirks := rfl
@[simp] theorem State.writeByte_draws (a : Addr) (b : Byte) : (s.writeByte a b).draws = s.draws := rfl
@[simp] theorem State.writeByte_diag (a : Addr) (b : Byte) : (s.writeByte a b).diag = s.diag := rfl

/-! ### reloadFonts -/

@[simp] theorem State.reloadFonts_V : s.reloadFonts.V = s.V := rfl
@[simp] theorem State.reloadFonts_I : s.reloadFonts.I = s.I := rfl
@[simp] theorem State.reloadFonts_pc : s.reloadFonts.pc = s.pc := rfl
@[simp] theorem State.reloadFonts_sp : s.reloadFonts.sp = s.sp := rfl
@[simp] theorem State.reloadFonts_stack : s.reloadFonts.stack = s.stack := rfl
@[simp] theorem State.reloadFonts_delayTimer : s.reloadFonts.delayTimer = s.delayTimer := rfl
@[simp] theorem State.reloadFonts_soundTimer : s.reloadFonts.soundTimer = s.soundTimer := rfl
@[simp] theorem State.reloadFonts_hiRes : s.reloadFonts.hiRes = s.hiRes := rfl
@[simp] theorem State.reloadFonts_bitPlaneSelect : s.reloadFonts.bitPlaneSelect = s.bitPlaneSelect := rfl
@[simp] theorem State.reloadFonts_stopped : s.reloadFonts.stopped = s.stopped := rfl
@[simp] theorem State.reloadFonts_waitingForKey : s.reloadFonts.waitingForKey = s.waitingForKey := rfl
@[simp] theorem State.reloadFonts_waitRegister : s.reloadFonts.waitRegister = s.waitRegister := rfl
@[simp] theorem State.reloadFonts_fault : s.reloadFonts.fault = s.fault := rfl
@[simp] theorem State.reloadFonts_userFlags : s.reloadFonts.userFlags = s.userFlags := rfl
@[simp] theorem State.reloadFonts_audioBuffer : s.reloadFonts.audioBuffer = s.audioBuffer := rfl
@[simp] theorem State.reloadFonts_planes : s.reloadFonts.planes = s.planes := rfl
@[simp] theorem State.reloadFonts_keys : s.reloadFonts.keys = s.keys := rfl
@[simp] theorem State.reloadFonts_mem : s.reloadFonts.mem = s.mem.reloadFonts := rfl
@[simp] theorem State.reloadFonts_redraw : s.reloadFonts.redraw = s.redraw := rfl
@[simp] theorem State.reloadFonts_quirks : s.reloadFonts.quirks = s.quirks := rfl
@[simp] theorem State.reloadFonts_draws : s.reloadFonts.draws = s.draws := rfl
@[simp] theorem State.reloadFonts_diag : s.reloadFonts.diag = s.diag := rfl

/-! ### emitDiag -/

@[simp] theorem State.emitDiag_V (w : Word) (a : Addr) : (s.emitDiag w a).V = s.V := rfl
@[simp] theorem State.emitDiag_I (w : Word) (a : Addr) : (s.emitDiag w a).I = s.I := rfl
@[simp] theorem State.emitDiag_pc (w : Word) (a : Addr) : (s.emitDiag w a).pc = s.pc := rfl
@[simp] theorem State.emitDiag_sp (w : Word) (a : Addr) : (s.emitDiag w a).sp = s.sp := rfl
@[simp] theorem State.emitDiag_stack (w : Word) (a : Addr) : (s.emitDiag w a).stack = s.stack := rfl
@[simp] theorem State.emitDiag_delayTimer (w : Word) (a : Addr) : (s.emitDiag w a).delayTimer = s.delayTimer := rfl
@[simp] theorem State.emitDiag_soundTimer (w : Word) (a : Addr) : (s.emitDiag w a).soundTimer = s.soundTimer := rfl
@[simp] theorem State.emitDiag_hiRes (w : Word) (a : Addr) : (s.emitDiag w a).hiRes = s.hiRes := rfl
@[simp] theorem State.emitDiag_bitPlaneSelect (w : Word) (a : Addr) : (s.emitDiag w a).bitPlaneSelect = s.bitPlaneSelect := rfl
@[simp] theorem State.emitDiag_stopped (w : Word) (a : Addr) : (s.emitDiag w a).stopped = s.stopped := rfl
@[simp] theorem State.emitDiag_waitingForKey (w : Word) (a : Addr) : (s.emitDiag w a).waitingForKey = s.waitingForKey := rfl
@[simp] theorem State.emitDiag_waitRegister (w : Word) (a : Addr) : (s.emitDiag w a).waitRegister = s.waitRegister := rfl
@[simp] theorem State.emitDiag_fault (w : Word) (a : Addr) : (s.emitDiag w a).fault = s.fault := rfl
@[simp] theorem State.emitDiag_userFlags (w : Word) (a : Addr) : (s.emitDiag w a).userFlags = s.userFlags := rfl
@[simp] theorem State.emitDiag_audioBuffer (w : Word) (a : Addr) : (s.emitDiag w a).audioBuffer = s.audioBuffer := rfl
@[simp] theorem State.emitDiag_planes (w : Word) (a : Addr) : (s.emitDiag w a).planes = s.planes := rfl
@[simp] theorem State.emitDiag_keys (w : Word) (a : Addr) : (s.emitDiag w a).keys = s.keys := rfl
@[simp] theorem State.emitDiag_mem (w : Word) (a : Addr) : (s.emitDiag w a).mem = s.mem := rfl
@[simp] theorem State.emitDiag_redraw (w : Word) (a : Addr) : (s.emitDiag w a).redraw = s.redraw := rfl
@[simp] theorem State.emitDiag_quirks (w : Word) (a : Addr) : (s.emitDiag w a).quirks = s.quirks := rfl
@[simp] theorem State.emitDiag_draws (w : Word) (a : Addr) : (s.emitDiag w a).draws = s.draws := rfl
@[simp] theorem State.emitDiag_diag (w : Word) (a : Addr) : (s.emitDiag w a).diag = ⟨w, a⟩ :: s.diag := rfl

/-! ### push -/

@[simp] theorem State.push_V (a : Addr) : (s.push a).V = s.V := rfl
@[simp] theorem State.push_I (a : Addr) : (s.push a).I = s.I := rfl
@[simp] theorem State.push_pc (a : Addr) : (s.push a).pc = s.pc := rfl
@[simp] theorem State.push_sp (a : Addr) : (s.push a).sp = s.sp + 1 := rfl
@[simp] theorem State.push_stack (a : Addr) : (s.push a).stack = s.stack.setIfInBounds s.sp a := rfl
@[simp] theorem State.push_delayTimer (a : Addr) : (s.push a).delayTimer = s.delayTimer := rfl
@[simp] theorem State.push_soundTimer (a : Addr) : (s.push a).soundTimer = s.soundTimer := rfl
@[simp] theorem State.push_hiRes (a : Addr) : (s.push a).hiRes = s.hiRes := rfl
@[simp] theorem State.push_bitPlaneSelect (a : Addr) : (s.push a).bitPlaneSelect = s.bitPlaneSelect := rfl
@[simp] theorem State.push_stopped (a : Addr) : (s.push a).stopped = s.stopped := rfl
@[simp] theorem State.push_waitingForKey (a : Addr) : (s.push a).waitingForKey = s.waitingForKey := rfl
@[simp] theorem State.push_waitRegister (a : Addr) : (s.push a).waitRegister = s.waitRegister := rfl
@[simp] theorem State.push_fault (a : Addr) : (s.push a).fault = s.fault := rfl
@[simp] theorem State.push_userFlags (a : Addr) : (s.push a).userFlags = s.userFlags := rfl
@[simp] theorem State.push_audioBuffer (a : Addr) : (s.push a).audioBuffer = s.audioBuffer := rfl
@[simp] theorem State.push_planes (a : Addr) : (s.push a).planes = s.planes := rfl
@[simp] theorem State.push_keys (a : Addr) : (s.push a).keys = s.keys := rfl
@[simp] theorem State.push_mem (a : Addr) : (s.push a).mem = s.mem := rfl
@[simp] theorem State.push_redraw (a : Addr) : (s.push a).redraw = s.redraw := rfl
@[simp] theorem State.push_quirks (a : Addr) : (s.push a).quirks = s.quirks := rfl
@[simp] theorem State.push_draws (a : Addr) : (s.push a).draws = s.draws := rfl
@[simp] theorem State.push_diag (a : Addr) : (s.push a).diag = s.diag := rfl

/-! ### pop -/

@[simp] theorem State.pop_V : s.pop.V = s.V := rfl
@[simp] theorem State.pop_I : s.pop.I = s.I := rfl
@[simp] theorem State.pop_pc : s.pop.pc = s.pc := rfl
@[simp] theorem State.pop_sp : s.pop.sp = s.sp - 1 := rfl
@[simp] theorem State.pop_stack : s.pop.stack = s.stack := rfl
@[simp] theorem State.pop_delayTimer : s.pop.delayTimer = s.delayTimer := rfl
@[simp] theorem State.pop_soundTimer : s.pop.soundTimer = s.soundTimer := rfl
@[simp] theorem State.pop_hiRes : s.pop.hiRes = s.hiRes := rfl
@[simp] theorem State.pop_bitPlaneSelect : s.pop.bitPlaneSelect = s.bitPlaneSelect := rfl
@[simp] theorem State.pop_stopped : s.pop.stopped = s.stopped := rfl
@[simp] theorem State.pop_waitingForKey : s.pop.waitingForKey = s.waitingForKey := rfl
@[simp] theorem State.pop_waitRegister : s.pop.waitRegister = s.waitRegister := rfl
@[simp] theorem State.pop_fault : s.pop.fault = s.fault := rfl
@[simp] theorem State.pop_userFlags : s.pop.userFlags = s.userFlags := rfl
@[simp] theorem State.pop_audioBuffer : s.pop.audioBuffer = s.audioBuffer := rfl
@[simp] theorem State.pop_planes : s.pop.planes = s.planes := rfl
@[simp] theorem State.pop_keys : s.pop.keys = s.keys := rfl
@[simp] theorem State.pop_mem : s.pop.mem = s.mem := rfl
@[simp] theorem State.pop_redraw : s.pop.redraw = s.redraw := rfl
@[simp] theorem State.pop_quirks : s.pop.quirks = s.quirks := rfl
@[simp] theorem State.pop_draws : s.pop.draws = s.draws := rfl
@[simp] theorem State.pop_diag : s.pop.diag = s.diag := rfl

/-! ### setPlanes -/

@[simp] theorem State.setPlanes_V (ps : Vector Plane 2) : (s.setPlanes ps).V = s.V := rfl
@[simp] theorem State.setPlanes_I (ps : Vector Plane 2) : (s.setPlanes ps).I = s.I := rfl
@[simp] theorem State.setPlanes_pc (ps : Vector Plane 2) : (s.setPlanes ps).pc = s.pc := rfl
@[simp] theorem State.setPlanes_sp (ps : Vector Plane 2) : (s.setPlanes ps).sp = s.sp := rfl
@[simp] theorem State.setPlanes_stack (ps : Vector Plane 2) : (s.setPlanes ps).stack = s.stack := rfl
@[simp] theorem State.setPlanes_delayTimer (ps : Vector Plane 2) : (s.setPlanes ps).delayTimer = s.delayTimer := rfl
@[simp] theorem State.setPlanes_soundTimer (ps : Vector Plane 2) : (s.setPlanes ps).soundTimer = s.soundTimer := rfl
@[simp] theorem State.setPlanes_hiRes (ps : Vector Plane 2) : (s.setPlanes ps).hiRes = s.hiRes := rfl
@[simp] theorem State.setPlanes_bitPlaneSelect (ps : Vector Plane 2) : (s.setPlanes ps).bitPlaneSelect = s.bitPlaneSelect := rfl
@[simp] theorem State.setPlanes_stopped (ps : Vector Plane 2) : (s.setPlanes ps).stopped = s.stopped := rfl
@[simp] theorem State.setPlanes_waitingForKey (ps : Vector Plane 2) : (s.setPlanes ps).waitingForKey = s.waitingForKey := rfl
@[simp] theorem State.setPlanes_waitRegister (ps : Vector Plane 2) : (s.setPlanes ps).waitRegister = s.waitRegister := rfl
@[simp] theorem State.setPlanes_fault (ps : Vector Plane 2) : (s.setPlanes ps).fault = s.fault := rfl
@[simp] theorem State.setPlanes_userFlags (ps : Vector Plane 2) : (s.setPlanes ps).userFlags = s.userFlags := rfl
@[simp] theorem State.setPlanes_audioBuffer (ps : Vector Plane 2) : (s.setPlanes ps).audioBuffer = s.audioBuffer := rfl
@[simp] theorem State.setPlanes_planes (ps : Vector Plane 2) : (s.setPlanes ps).planes = ps := rfl
@[simp] theorem State.setPlanes_keys (ps : Vector Plane 2) : (s.setPlanes ps).keys = s.keys := rfl
@[simp] theorem State.setPlanes_mem (ps : Vector Plane 2) : (s.setPlanes ps).mem = s.mem := rfl
@[simp] theorem State.setPlanes_redraw (ps : Vector Plane 2) : (s.setPlanes ps).redraw = s.redraw := rfl
@[simp] theorem State.setPlanes_quirks (ps : Vector Plane 2) : (s.setPlanes ps).quirks = s.quirks := rfl
@[simp] theorem State.setPlanes_draws (ps : Vector Plane 2) : (s.setPlanes ps).draws = s.draws := rfl
@[simp] theorem State.setPlanes_diag (ps : Vector Plane 2) : (s.setPlanes ps).diag = s.diag := rfl

end Sys2Proof.Machine
end

