-- ==== Sys2Proof/Laws/Accessors.lean ====
section
/-! SUPPORT. The accessors of Machine/Ops.lean (a register, a byte of memory, a pixel) over its updates, and what a register
write does to every register. -/

namespace Sys2Proof.Machine

variable (s : State)

/-! ### A register (10_state.md R20) -/

theorem State.readV_writeV (r q : Reg) (b : Byte) :
    (s.writeV r b).readV q = if q = r then b else s.readV q := by
  simp only [State.readV, State.writeV, Vector.getElem_set]
  by_cases h : q = r
  · simp [h]
  · rw [if_neg h, if_neg]
    exact fun e => h (BitVec.eq_of_toNat_eq e.symm)

@[simp] theorem State.readV_writeV_same (r : Reg) (b : Byte) : (s.writeV r b).readV r = b := by
  simp [State.readV_writeV]

theorem State.readV_writeV_ne {r q : Reg} (h : q ≠ r) (b : Byte) : (s.writeV r b).readV q = s.readV q := by
  simp [State.readV_writeV, h]

@[simp] theorem State.readV_setI (a : Addr) (q : Reg) : (s.setI a).readV q = s.readV q := rfl
@[simp] theorem State.readV_setPc (a : Addr) (q : Reg) : (s.setPc a).readV q = s.readV q := rfl
@[simp] theorem State.readV_setDelayTimer (b : Byte) (q : Reg) : (s.setDelayTimer b).readV q = s.readV q := rfl
@[simp] theorem State.readV_setSoundTimer (b : Byte) (q : Reg) : (s.setSoundTimer b).readV q = s.readV q := rfl
@[simp] theorem State.readV_setHiRes (h : Bool) (q : Reg) : (s.setHiRes h).readV q = s.readV q := rfl
@[simp] theorem State.readV_setPlaneSelect (m : BitVec 2) (q : Reg) : (s.setPlaneSelect m).readV q = s.readV q := rfl
@[simp] theorem State.readV_stop (q : Reg) : s.stop.readV q = s.readV q := rfl
@[simp] theorem State.readV_armWait (r : Reg) (q : Reg) : (s.armWait r).readV q = s.readV q := rfl
@[simp] theorem State.readV_setFault (f : FaultRecord) (q : Reg) : (s.setFault f).readV q = s.readV q := rfl
@[simp] theorem State.readV_writeFlag (k : Nat) (b : Byte) (q : Reg) : (s.writeFlag k b).readV q = s.readV q := rfl
@[simp] theorem State.readV_setAudio (a : Vector Byte 16) (q : Reg) : (s.setAudio a).readV q = s.readV q := rfl
@[simp] theorem State.readV_setKeys (k : BitVec 16) (q : Reg) : (s.setKeys k).readV q = s.readV q := rfl
@[simp] theorem State.readV_setQuirks (q : Quirks) (r : Reg) : (s.setQuirks q).readV r = s.readV r := rfl
@[simp] theorem State.readV_markRedraw (q : Reg) : s.markRedraw.readV q = s.readV q := rfl
@[simp] theorem State.readV_clearRedraw (q : Reg) : s.clearRedraw.readV q = s.readV q := rfl
@[simp] theorem State.readV_countDraw (q : Reg) : s.countDraw.readV q = s.readV q := rfl
@[simp] theorem State.readV_writeByte (a : Addr) (b : Byte) (q : Reg) : (s.writeByte a b).readV q = s.readV q := rfl
@[simp] theorem State.readV_reloadFonts (q : Reg) : s.reloadFonts.readV q = s.readV q := rfl
@[simp] theorem State.readV_emitDiag (w : Word) (a : Addr) (q : Reg) : (s.emitDiag w a).readV q = s.readV q := rfl
@[simp] theorem State.readV_push (a : Addr) (q : Reg) : (s.push a).readV q = s.readV q := rfl
@[simp] theorem State.readV_pop (q : Reg) : s.pop.readV q = s.readV q := rfl
@[simp] theorem State.readV_setPlanes (ps : Vector Plane 2) (q : Reg) : (s.setPlanes ps).readV q = s.readV q := rfl

/-! ### A byte of memory (20_memory.md R51) -/

@[simp] theorem State.readByte_writeV (r : Reg) (b : Byte) (q : Addr) : (s.writeV r b).readByte q = s.readByte q := rfl
@[simp] theorem State.readByte_setI (a : Addr) (q : Addr) : (s.setI a).readByte q = s.readByte q := rfl
@[simp] theorem State.readByte_setPc (a : Addr) (q : Addr) : (s.setPc a).readByte q = s.readByte q := rfl
@[simp] theorem State.readByte_setDelayTimer (b : Byte) (q : Addr) : (s.setDelayTimer b).readByte q = s.readByte q := rfl
@[simp] theorem State.readByte_setSoundTimer (b : Byte) (q : Addr) : (s.setSoundTimer b).readByte q = s.readByte q := rfl
@[simp] theorem State.readByte_setHiRes (h : Bool) (q : Addr) : (s.setHiRes h).readByte q = s.readByte q := rfl
@[simp] theorem State.readByte_setPlaneSelect (m : BitVec 2) (q : Addr) : (s.setPlaneSelect m).readByte q = s.readByte q := rfl
@[simp] theorem State.readByte_stop (q : Addr) : s.stop.readByte q = s.readByte q := rfl
@[simp] theorem State.readByte_armWait (r : Reg) (q : Addr) : (s.armWait r).readByte q = s.readByte q := rfl
@[simp] theorem State.readByte_setFault (f : FaultRecord) (q : Addr) : (s.setFault f).readByte q = s.readByte q := rfl
@[simp] theorem State.readByte_writeFlag (k : Nat) (b : Byte) (q : Addr) : (s.writeFlag k b).readByte q = s.readByte q := rfl
@[simp] theorem State.readByte_setAudio (a : Vector Byte 16) (q : Addr) : (s.setAudio a).readByte q = s.readByte q := rfl
@[simp] theorem State.readByte_setKeys (k : BitVec 16) (q : Addr) : (s.setKeys k).readByte q = s.readByte q := rfl
@[simp] theorem State.readByte_setQuirks (q : Quirks) (a : Addr) : (s.setQuirks q).readByte a = s.readByte a := rfl
@[simp] theorem State.readByte_markRedraw (q : Addr) : s.markRedraw.readByte q = s.readByte q := rfl
@[simp] theorem State.readByte_clearRedraw (q : Addr) : s.clearRedraw.readByte q = s.readByte q := rfl
@[simp] theorem State.readByte_countDraw (q : Addr) : s.countDraw.readByte q = s.readByte q := rfl
@[simp] theorem State.readByte_emitDiag (w : Word) (a : Addr) (q : Addr) : (s.emitDiag w a).readByte q = s.readByte q := rfl
@[simp] theorem State.readByte_push (a : Addr) (q : Addr) : (s.push a).readByte q = s.readByte q := rfl
@[simp] theorem State.readByte_pop (q : Addr) : s.pop.readByte q = s.readByte q := rfl
@[simp] theorem State.readByte_setPlanes (ps : Vector Plane 2) (q : Addr) : (s.setPlanes ps).readByte q = s.readByte q := rfl

/-! ### A plane, a pixel, a selected plane (43_graphics.md R160) -/

@[simp] theorem State.plane_writeV (r : Reg) (b : Byte) (p : Fin 2) : (s.writeV r b).plane p = s.plane p := rfl
@[simp] theorem State.plane_setI (a : Addr) (p : Fin 2) : (s.setI a).plane p = s.plane p := rfl
@[simp] theorem State.plane_setPc (a : Addr) (p : Fin 2) : (s.setPc a).plane p = s.plane p := rfl
@[simp] theorem State.plane_setDelayTimer (b : Byte) (p : Fin 2) : (s.setDelayTimer b).plane p = s.plane p := rfl
@[simp] theorem State.plane_setSoundTimer (b : Byte) (p : Fin 2) : (s.setSoundTimer b).plane p = s.plane p := rfl
@[simp] theorem State.plane_setHiRes (h : Bool) (p : Fin 2) : (s.setHiRes h).plane p = s.plane p := rfl
@[simp] theorem State.plane_setPlaneSelect (m : BitVec 2) (p : Fin 2) : (s.setPlaneSelect m).plane p = s.plane p := rfl
@[simp] theorem State.plane_stop (p : Fin 2) : s.stop.plane p = s.plane p := rfl
@[simp] theorem State.plane_armWait (r : Reg) (p : Fin 2) : (s.armWait r).plane p = s.plane p := rfl
@[simp] theorem State.plane_setFault (f : FaultRecord) (p : Fin 2) : (s.setFault f).plane p = s.plane p := rfl
@[simp] theorem State.plane_writeFlag (k : Nat) (b : Byte) (p : Fin 2) : (s.writeFlag k b).plane p = s.plane p := rfl
@[simp] theorem State.plane_setAudio (a : Vector Byte 16) (p : Fin 2) : (s.setAudio a).plane p = s.plane p := rfl
@[simp] theorem State.plane_setKeys (k : BitVec 16) (p : Fin 2) : (s.setKeys k).plane p = s.plane p := rfl
@[simp] theorem State.plane_setQuirks (q : Quirks) (p : Fin 2) : (s.setQuirks q).plane p = s.plane p := rfl
@[simp] theorem State.plane_markRedraw (p : Fin 2) : s.markRedraw.plane p = s.plane p := rfl
@[simp] theorem State.plane_clearRedraw (p : Fin 2) : s.clearRedraw.plane p = s.plane p := rfl
@[simp] theorem State.plane_countDraw (p : Fin 2) : s.countDraw.plane p = s.plane p := rfl
@[simp] theorem State.plane_writeByte (a : Addr) (b : Byte) (p : Fin 2) : (s.writeByte a b).plane p = s.plane p := rfl
@[simp] theorem State.plane_reloadFonts (p : Fin 2) : s.reloadFonts.plane p = s.plane p := rfl
@[simp] theorem State.plane_emitDiag (w : Word) (a : Addr) (p : Fin 2) : (s.emitDiag w a).plane p = s.plane p := rfl
@[simp] theorem State.plane_push (a : Addr) (p : Fin 2) : (s.push a).plane p = s.plane p := rfl
@[simp] theorem State.plane_pop (p : Fin 2) : s.pop.plane p = s.plane p := rfl
@[simp] theorem State.selected_writeV (r : Reg) (b : Byte) (p : Fin 2) : (s.writeV r b).selected p = s.selected p := rfl
@[simp] theorem State.selected_setI (a : Addr) (p : Fin 2) : (s.setI a).selected p = s.selected p := rfl
@[simp] theorem State.selected_setPc (a : Addr) (p : Fin 2) : (s.setPc a).selected p = s.selected p := rfl
@[simp] theorem State.selected_setDelayTimer (b : Byte) (p : Fin 2) : (s.setDelayTimer b).selected p = s.selected p := rfl
@[simp] theorem State.selected_setSoundTimer (b : Byte) (p : Fin 2) : (s.setSoundTimer b).selected p = s.selected p := rfl
@[simp] theorem State.selected_setHiRes (h : Bool) (p : Fin 2) : (s.setHiRes h).selected p = s.selected p := rfl
@[simp] theorem State.selected_stop (p : Fin 2) : s.stop.selected p = s.selected p := rfl
@[simp] theorem State.selected_armWait (r : Reg) (p : Fin 2) : (s.armWait r).selected p = s.selected p := rfl
@[simp] theorem State.selected_setFault (f : FaultRecord) (p : Fin 2) : (s.setFault f).selected p = s.selected p := rfl
@[simp] theorem State.selected_writeFlag (k : Nat) (b : Byte) (p : Fin 2) : (s.writeFlag k b).selected p = s.selected p := rfl
@[simp] theorem State.selected_setAudio (a : Vector Byte 16) (p : Fin 2) : (s.setAudio a).selected p = s.selected p := rfl
@[simp] theorem State.selected_setKeys (k : BitVec 16) (p : Fin 2) : (s.setKeys k).selected p = s.selected p := rfl
@[simp] theorem State.selected_setQuirks (q : Quirks) (p : Fin 2) : (s.setQuirks q).selected p = s.selected p := rfl
@[simp] theorem State.selected_markRedraw (p : Fin 2) : s.markRedraw.selected p = s.selected p := rfl
@[simp] theorem State.selected_clearRedraw (p : Fin 2) : s.clearRedraw.selected p = s.selected p := rfl
@[simp] theorem State.selected_countDraw (p : Fin 2) : s.countDraw.selected p = s.selected p := rfl
@[simp] theorem State.selected_writeByte (a : Addr) (b : Byte) (p : Fin 2) : (s.writeByte a b).selected p = s.selected p := rfl
@[simp] theorem State.selected_reloadFonts (p : Fin 2) : s.reloadFonts.selected p = s.selected p := rfl
@[simp] theorem State.selected_emitDiag (w : Word) (a : Addr) (p : Fin 2) : (s.emitDiag w a).selected p = s.selected p := rfl
@[simp] theorem State.selected_push (a : Addr) (p : Fin 2) : (s.push a).selected p = s.selected p := rfl
@[simp] theorem State.selected_pop (p : Fin 2) : s.pop.selected p = s.selected p := rfl
@[simp] theorem State.selected_setPlanes (ps : Vector Plane 2) (p : Fin 2) : (s.setPlanes ps).selected p = s.selected p := rfl

@[simp] theorem State.plane_setPlanes (ps : Vector Plane 2) (p : Fin 2) : (s.setPlanes ps).plane p = ps[p] := rfl

theorem State.plane_mapSelected (f : Plane → Plane) (p : Fin 2) :
    (s.mapSelected f).plane p = if s.selected p then f (s.plane p) else s.plane p := by
  simp [State.mapSelected, State.plane_setPlanes]

end Sys2Proof.Machine
end

