-- ==== Sys2Proof/Laws/Memory.lean ====
section
/-! SUPPORT. The laws of memory: a read after a write, every operation keeps the canonical form, and two memories in
canonical form that know the same bytes are the same data. -/

namespace Sys2Proof.Machine

/-! ### The font region (20_memory.md R57) -/

theorem length_fonts : (fontSmall ++ fontBig).length = fontEnd := by
  rw [List.length_append]
  have h1 : fontSmall.length = 80 := by decide
  have h2 : fontBig.length = 100 := by decide
  rw [h1, h2]
  rfl

/-- Every address of the font region has a glyph byte. -/
theorem fontByte_isSome {a : Nat} (h : a < fontEnd) : (fontByte a).isSome = true := by
  rw [← length_fonts] at h
  rw [fontByte, List.getElem?_eq_getElem h]
  rfl

/-- No address above the font region has one. -/
theorem fontByte_eq_none {a : Nat} (h : fontEnd ≤ a) : fontByte a = none := by
  rw [fontByte, List.getElem?_eq_none_iff, length_fonts]
  exact h

/-! ### What a write lists -/

theorem Memory.listed_insert (m : Memory) (a q : Nat) (b : Byte) :
    (m.insert a b).listed q = if a = q then some b else m.listed q := by
  induction m with
  | nil => simp [Memory.insert, Memory.listed]
  | cons c m ih =>
    obtain ⟨a', b'⟩ := c
    unfold Memory.insert
    split
    · simp [Memory.listed]
    · split
      · subst_vars
        by_cases hq : a' = q <;> simp [Memory.listed, hq]
      · simp only [Memory.listed, ih]
        by_cases hq : a' = q
        · have : a ≠ q := by omega
          simp [hq, this]
        · simp [hq]

/-- What a filter by address leaves listed. -/
theorem Memory.listed_filter (m : Memory) (f : Nat → Bool) (q : Nat) :
    Memory.listed (m.filter fun c => f c.1) q = if f q then m.listed q else none := by
  induction m with
  | nil => simp [Memory.listed]
  | cons c m ih =>
    obtain ⟨a', b'⟩ := c
    by_cases hf : f a'
    · rw [List.filter_cons_of_pos (by simpa using hf)]
      by_cases hq : a' = q
      · subst hq; simp [Memory.listed, hf]
      · simp [Memory.listed, hq, ih]
    · rw [List.filter_cons_of_neg (by simpa using hf), ih]
      by_cases hq : a' = q
      · subst hq; simp [hf]
      · simp [Memory.listed, hq]

theorem Memory.listed_forget (m : Memory) (a q : Nat) :
    (m.forget a).listed q = if a = q then none else m.listed q := by
  unfold Memory.forget
  rw [Memory.listed_filter m (fun k => k != a) q]
  by_cases hq : a = q
  · simp [hq]
  · simp [hq, Ne.symm hq]

/-- What is known after a write: the byte written, and elsewhere what was known before. -/
theorem Memory.known_write (m : Memory) (a q : Nat) (b : Byte) :
    (m.write a b).known q = if a = q then some b else m.known q := by
  unfold Memory.write Memory.known
  split
  · next hf =>
    rw [Memory.listed_forget m a q]
    by_cases hq : a = q
    · subst hq; simp [hf]
    · simp [hq]
  · rw [Memory.listed_insert m a q b]
    by_cases hq : a = q <;> simp [hq]

/-- A read after a write: the byte written, and elsewhere what was read before (20_memory.md R60). -/
theorem Memory.read_write (m : Memory) (a q : Nat) (b : Byte) :
    (m.write a b).read q = if a = q then b else m.read q := by
  unfold Memory.read
  rw [Memory.known_write m a q b]
  by_cases hq : a = q <;> simp [hq]

/-! ### The canonical form is kept -/

theorem Memory.mem_insert (m : Memory) (a : Nat) (b : Byte) (c : Host.Cell) (h : c ∈ m.insert a b) :
    c = (a, b) ∨ c ∈ m := by
  induction m with
  | nil => simpa [Memory.insert] using h
  | cons d m ih =>
    unfold Memory.insert at h
    split at h
    · simpa using h
    · split at h
      · rcases List.mem_cons.mp h with h | h
        · exact .inl h
        · exact .inr (List.mem_cons_of_mem _ h)
      · rcases List.mem_cons.mp h with h | h
        · exact .inr (h ▸ List.mem_cons_self)
        · exact (ih h).imp id (List.mem_cons_of_mem _)

theorem Memory.insert_rising (m : Memory) (a : Nat) (b : Byte) (h : m.Pairwise (fun c d => c.1 < d.1)) :
    (m.insert a b).Pairwise (fun c d => c.1 < d.1) := by
  induction m with
  | nil => simp [Memory.insert]
  | cons c m ih =>
    obtain ⟨a', b'⟩ := c
    have ⟨hc, hm⟩ := List.pairwise_cons.mp h
    unfold Memory.insert
    split
    · next hlt =>
      refine List.pairwise_cons.mpr ⟨fun d hd => ?_, h⟩
      rcases List.mem_cons.mp hd with rfl | hd
      · exact hlt
      · exact Nat.lt_trans hlt (hc d hd)
    · split
      · next heq => subst heq; exact List.pairwise_cons.mpr ⟨hc, hm⟩
      · next h1 h2 =>
        refine List.pairwise_cons.mpr ⟨fun d hd => ?_, ih hm⟩
        rcases Memory.mem_insert m a b d hd with rfl | hd
        · show a' < a
          omega
        · exact hc d hd

theorem Memory.write_wf (m : Memory) (a : Nat) (b : Byte) (h : m.wf) (ha : a < memSize) : (m.write a b).wf := by
  unfold Memory.write
  split
  · exact ⟨h.1.filter _, fun c hc => h.2 c (List.mem_of_mem_filter hc)⟩
  · next hf =>
    refine ⟨Memory.insert_rising m a b h.1, fun c hc => ?_⟩
    rcases Memory.mem_insert m a b c hc with rfl | hc
    · exact ⟨ha, hf⟩
    · exact h.2 c hc

theorem Memory.reloadFonts_wf (m : Memory) (h : m.wf) : m.reloadFonts.wf :=
  ⟨h.1.filter _, fun c hc => h.2 c (List.mem_of_mem_filter hc)⟩

/-! ### Reloading the font region (70_reset_and_hazards.md R231) -/

theorem Memory.listed_reloadFonts (m : Memory) (q : Nat) :
    m.reloadFonts.listed q = if q < fontEnd then none else m.listed q := by
  unfold Memory.reloadFonts
  rw [Memory.listed_filter m (fun k => decide (fontEnd ≤ k)) q]
  by_cases hq : q < fontEnd
  · have : ¬ fontEnd ≤ q := by omega
    simp [hq, this]
  · have : fontEnd ≤ q := by omega
    simp [hq, this]

/-- After a reload the font region reads as the glyph tables and every other byte as before. -/
theorem Memory.read_reloadFonts (m : Memory) (q : Nat) :
    m.reloadFonts.read q = if q < fontEnd then (fontByte q).getD (Config.memInit q) else m.read q := by
  unfold Memory.read Memory.known
  rw [Memory.listed_reloadFonts]
  by_cases hq : q < fontEnd <;> simp [hq]

/-! ### Equal memories are equal data -/

theorem Memory.listed_of_mem (m : Memory) (h : m.Pairwise (fun c d => c.1 < d.1)) (c : Host.Cell) (hc : c ∈ m) :
    m.listed c.1 = some c.2 := by
  induction m with
  | nil => simp at hc
  | cons d m ih =>
    obtain ⟨a', b'⟩ := d
    have ⟨hd, hm⟩ := List.pairwise_cons.mp h
    rcases List.mem_cons.mp hc with rfl | hc
    · simp [Memory.listed]
    · have h1 : a' < c.1 := hd c hc
      have h2 : a' ≠ c.1 := by omega
      simp only [Memory.listed, if_neg h2]
      exact ih hm hc

theorem Memory.mem_of_listed (m : Memory) (a : Nat) (b : Byte) (h : m.listed a = some b) : (a, b) ∈ m := by
  induction m with
  | nil => simp [Memory.listed] at h
  | cons d m ih =>
    obtain ⟨a', b'⟩ := d
    unfold Memory.listed at h
    split at h
    · next he => subst he; simp at h; simp [h]
    · exact List.mem_cons_of_mem _ (ih h)

theorem Memory.listed_eq_of_known_eq (m m' : Memory) (h : m.wf) (h' : m'.wf) (e : ∀ a, m.known a = m'.known a) (a : Nat) :
    m.listed a = m'.listed a := by
  have ea := e a
  unfold Memory.known at ea
  cases hl : m.listed a with
  | none =>
    cases hl' : m'.listed a with
    | none => rfl
    | some b =>
      have hb := (h'.2 (a, b) (Memory.mem_of_listed m' a b hl')).2
      simp [hl, hl'] at ea
      exact absurd ea hb
  | some b =>
    cases hl' : m'.listed a with
    | none =>
      have hb := (h.2 (a, b) (Memory.mem_of_listed m a b hl)).2
      simp [hl, hl'] at ea
      exact absurd ea.symm hb
    | some b' => simpa [hl, hl'] using ea

/-- Two memories in canonical form that know the same byte (or nothing) at every address are the same list. -/
theorem Memory.eq_of_known_eq (m m' : Memory) (h : m.wf) (h' : m'.wf) (e : ∀ a, m.known a = m'.known a) : m = m' := by
  have el := Memory.listed_eq_of_known_eq m m' h h' e
  have hmem : ∀ c, c ∈ m ↔ c ∈ m' := fun c =>
    ⟨fun hc => Memory.mem_of_listed m' _ _ ((el c.1) ▸ Memory.listed_of_mem m h.1 c hc),
     fun hc => Memory.mem_of_listed m _ _ ((el c.1).symm ▸ Memory.listed_of_mem m' h'.1 c hc)⟩
  have nd : ∀ l : Memory, l.Pairwise (fun c d => c.1 < d.1) → l.Nodup := fun l hl =>
    hl.imp fun hlt he => by simp [he] at hlt
  exact ((List.perm_ext_iff_of_nodup (nd m h.1) (nd m' h'.1)).mpr hmem).eq_of_pairwise
    (fun a b _ _ h1 h2 => absurd h1 (Nat.not_lt.mpr (Nat.le_of_lt h2))) h.1 h'.1

/-! ### The state's memory -/

theorem State.readByte_writeByte (s : State) (a q : Addr) (b : Byte) :
    (s.writeByte a b).readByte q = if q = a then b else s.readByte q := by
  unfold State.readByte
  rw [State.writeByte_mem, Memory.read_write]
  by_cases hq : q = a
  · simp [hq]
  · rw [if_neg hq, if_neg]
    exact fun e => hq (BitVec.eq_of_toNat_eq e.symm)

theorem State.writeByte_wf (s : State) (a : Addr) (b : Byte) (h : s.mem.wf) : (s.writeByte a b).mem.wf :=
  Memory.write_wf _ _ _ h a.isLt

theorem State.reset_wf : State.reset.mem.wf := ⟨List.Pairwise.nil, fun _ hc => absurd hc (by simp [State.reset])⟩

end Sys2Proof.Machine
end

