-- ==== Sys2Proof/Laws/Blocks.lean ====
section
/-! SUPPORT. What the shared operations of Machine/Operands.lean do: masked accesses, block transfers, flag transfers,
skips; and the stack fault of Machine/Ops.lean. For each: the fields it may change, and what they become. -/

namespace Sys2Proof.Machine

variable (s : State)

/-! ### Masked accesses (20_memory.md R55) -/

theorem toNat_mask12 (a : Addr) : (mask12 a).toNat = a.toNat % 4096 := by
  have h : (0x0FFF#16).toNat = 2 ^ 12 - 1 := rfl
  rw [mask12, BitVec.toNat_and, h, Nat.and_two_pow_sub_one_eq_mod]

/-- Offsets below 4096 from one address are masked to different addresses. -/
theorem mask12_add_inj (a : Addr) (j k : Nat) (hj : j < 4096) (hk : k < 4096)
    (h : mask12 (a + BitVec.ofNat 16 j) = mask12 (a + BitVec.ofNat 16 k)) : j = k := by
  have h' := congrArg BitVec.toNat h
  simp only [toNat_mask12, BitVec.toNat_add, BitVec.toNat_ofNat] at h'
  omega

theorem ofNat_add_one (a : Addr) (k : Nat) : a + 1 + BitVec.ofNat 16 k = a + BitVec.ofNat 16 (k + 1) := by
  have h1 : (1 : Addr).toNat = 1 := rfl
  apply BitVec.eq_of_toNat_eq
  simp only [BitVec.toNat_add, BitVec.toNat_ofNat, h1]
  omega

/-! ### Storing a block (41_memory_ops.md R126, R128) -/

/-- A block store changes memory alone. -/
theorem State.storeRegs_eq (a : Addr) (rs : List Reg) :
    s.storeRegs a rs = { s with mem := (s.storeRegs a rs).mem } := by
  induction rs generalizing s a with
  | nil => rfl
  | cons r rs ih =>
    rw [State.storeRegs, ih]
    rfl

theorem State.readV_storeRegs (a : Addr) (rs : List Reg) (q : Reg) : (s.storeRegs a rs).readV q = s.readV q := by
  rw [State.storeRegs_eq]
  rfl

/-- A block store keeps the canonical form of memory. -/
theorem State.storeRegs_wf (a : Addr) (rs : List Reg) (h : s.mem.wf) : (s.storeRegs a rs).mem.wf := by
  induction rs generalizing s a with
  | nil => exact h
  | cons r rs ih => exact ih _ _ (State.writeByte_wf _ _ _ h)

/-- A byte outside the block reads as before. -/
theorem State.readByte_storeRegs_outside (a q : Addr) (rs : List Reg)
    (h : ∀ k < rs.length, q ≠ mask12 (a + BitVec.ofNat 16 k)) : (s.storeRegs a rs).readByte q = s.readByte q := by
  induction rs generalizing s a with
  | nil => rfl
  | cons r rs ih =>
    rw [State.storeRegs, ih]
    · have h0 := h 0 (by simp)
      rw [State.writeByte12, State.readByte_writeByte, if_neg]
      simpa using h0
    · intro k hk
      rw [ofNat_add_one]
      exact h (k + 1) (by simpa using hk)

/-- The `k`-th byte of the block reads as the `k`-th register. -/
theorem State.readByte_storeRegs (a : Addr) (rs : List Reg) (hl : rs.length ≤ 4096) (k : Nat) (hk : k < rs.length) :
    (s.storeRegs a rs).readByte (mask12 (a + BitVec.ofNat 16 k)) = s.readV rs[k] := by
  induction rs generalizing s a k with
  | nil => simp at hk
  | cons r rs ih =>
    cases k with
    | zero =>
      rw [State.storeRegs, State.readByte_storeRegs_outside, State.writeByte12, State.readByte_writeByte, if_pos]
      · rfl
      · simp
      · intro k hk' he
        rw [ofNat_add_one] at he
        have := mask12_add_inj a 0 (k + 1) (by omega) (by simp at hl; omega) he
        omega
    | succ k =>
      rw [State.storeRegs, ← ofNat_add_one, ih _ _ (by simp at hl; omega) k (by simpa using hk)]
      rfl

/-! ### Loading a block (R127, R129) -/

/-- A block load changes the general registers alone. -/
theorem State.loadRegs_eq (a : Addr) (rs : List Reg) : s.loadRegs a rs = { s with V := (s.loadRegs a rs).V } := by
  induction rs generalizing s a with
  | nil => rfl
  | cons r rs ih =>
    rw [State.loadRegs, ih]
    rfl

/-- A register outside the block keeps its value. -/
theorem State.readV_loadRegs_outside (a : Addr) (rs : List Reg) (q : Reg) (h : q ∉ rs) :
    (s.loadRegs a rs).readV q = s.readV q := by
  induction rs generalizing s a with
  | nil => rfl
  | cons r rs ih =>
    simp only [List.mem_cons, not_or] at h
    rw [State.loadRegs, ih _ _ h.2, State.readV_writeV_ne _ h.1]

/-- The `k`-th register of a block without repeats receives the `k`-th byte. -/
theorem State.readV_loadRegs (a : Addr) (rs : List Reg) (hn : rs.Nodup) (k : Nat) (hk : k < rs.length) :
    (s.loadRegs a rs).readV rs[k] = s.readByte (mask12 (a + BitVec.ofNat 16 k)) := by
  induction rs generalizing s a k with
  | nil => simp at hk
  | cons r rs ih =>
    have ⟨hr, hn'⟩ := List.nodup_cons.mp hn
    cases k with
    | zero =>
      rw [State.loadRegs]
      simp only [List.getElem_cons_zero]
      rw [State.readV_loadRegs_outside _ _ _ _ hr, State.readV_writeV_same]
      simp [State.readByte12]
    | succ k =>
      rw [State.loadRegs]
      simp only [List.getElem_cons_succ]
      rw [ih _ _ hn' k (by simpa using hk), ofNat_add_one]
      rfl

/-! ### The register ranges -/

theorem regsUpTo_length (x : Reg) : (regsUpTo x).length = x.toNat + 1 := by simp [regsUpTo]

theorem regsUpTo_getElem (x : Reg) (k : Nat) (h : k < (regsUpTo x).length) : (regsUpTo x)[k] = BitVec.ofNat 4 k := by
  simp [regsUpTo]

theorem regsUpTo_nodup (x : Reg) : (regsUpTo x).Nodup := by
  revert x
  decide

theorem regRange_length (x y : Reg) :
    (regRange x y).length = (if x.toNat ≤ y.toNat then y.toNat - x.toNat else x.toNat - y.toNat) + 1 := by
  unfold regRange
  split <;> simp

theorem regRange_nodup (x y : Reg) : (regRange x y).Nodup := by
  revert x y
  decide

/-! ### Flag transfers (R130, R131) -/

/-- Saving to the flag bytes changes them alone. -/
theorem State.saveFlags_eq (ks : List Nat) : s.saveFlags ks = { s with userFlags := (s.saveFlags ks).userFlags } := by
  induction ks generalizing s with
  | nil => rfl
  | cons k ks ih =>
    rw [State.saveFlags, ih]
    rfl

/-- Loading from the flag bytes changes the general registers alone. -/
theorem State.loadFlags_eq (ks : List Nat) : s.loadFlags ks = { s with V := (s.loadFlags ks).V } := by
  induction ks generalizing s with
  | nil => rfl
  | cons k ks ih =>
    rw [State.loadFlags, ih]
    rfl

theorem State.readFlag_writeFlag (k q : Nat) (b : Byte) :
    (s.writeFlag k b).readFlag q = if k = q ∧ q < 8 then b else s.readFlag q := by
  unfold State.readFlag
  rw [State.writeFlag_userFlags, Vector.getElem?_setIfInBounds]
  by_cases hk : k = q
  · subst hk
    by_cases h8 : k < 8 <;> simp [h8]
  · simp [hk]

/-- What the flag bytes hold after a save: the saved registers, and elsewhere what they held. -/
theorem State.readFlag_saveFlags (ks : List Nat) (q : Nat) :
    (s.saveFlags ks).readFlag q = if q ∈ ks ∧ q < 8 then s.readV (BitVec.ofNat 4 q) else s.readFlag q := by
  induction ks generalizing s with
  | nil => simp [State.saveFlags]
  | cons k ks ih =>
    rw [State.saveFlags, ih, State.readV_writeFlag, State.readFlag_writeFlag]
    by_cases hq : q ∈ ks
    · by_cases h8 : q < 8 <;> simp [hq, h8]
    · by_cases hk : k = q
      · subst hk; by_cases h8 : k < 8 <;> simp [hq, h8]
      · have : ¬ q = k := fun e => hk e.symm
        simp [hq, hk, this]

/-- What a register holds after a load from the flag bytes: its flag byte if it is loaded, else what it held. -/
theorem State.readV_loadFlags (ks : List Nat) (hks : ∀ k ∈ ks, k < 16) (q : Reg) :
    (s.loadFlags ks).readV q = if q.toNat ∈ ks then s.readFlag q.toNat else s.readV q := by
  induction ks generalizing s with
  | nil => simp [State.loadFlags]
  | cons k ks ih =>
    have hk : k < 16 := hks k (by simp)
    have hf : ∀ j, (s.writeV (BitVec.ofNat 4 k) (s.readFlag k)).readFlag j = s.readFlag j := fun _ => rfl
    rw [State.loadFlags, ih _ fun j hj => hks j (List.mem_cons_of_mem _ hj), hf, State.readV_writeV]
    have he : q = BitVec.ofNat 4 k ↔ q.toNat = k := by
      rw [← BitVec.toNat_inj, BitVec.toNat_ofNat]
      constructor <;> intro h <;> omega
    by_cases hq : q.toNat ∈ ks
    · simp [hq]
    · by_cases hqk : q.toNat = k
      · rw [if_neg hq, if_pos (he.mpr hqk), if_pos (by simp [hqk]), hqk]
      · simp [hq, hqk, mt he.mp hqk]

/-! ### Skips and the increment of `I` (42_control_flow.md R145) -/

/-- A skip changes `pc` alone: by the width of the next instruction if the condition holds. -/
theorem State.skipIf_eq (c : Bool) :
    s.skipIf c = { s with pc := if c then s.pc + s.skipWidth else s.pc } := rfl

/-- The increment changes `I` alone. -/
theorem State.incrementI_eq (x : Reg) :
    s.incrementI x = { s with I := if s.quirks.loadStoreIncrementsI then s.I + x.setWidth 16 + 1 else s.I } := rfl

/-! ### The stack fault (60_exceptions.md R202) -/

/-- Taking a stack fault changes `pc` and the fault record alone. -/
theorem State.takeStackFault_eq (record : Addr → FaultRecord) :
    s.takeStackFault record = { s with pc := s.pc - 2, fault := record (s.pc - 2) } := rfl

/-- Storing bytes changes memory alone. -/
theorem State.writeBytes_eq (a : Addr) (bs : List Byte) :
    s.writeBytes a bs = { s with mem := (s.writeBytes a bs).mem } := by
  induction bs generalizing s a with
  | nil => rfl
  | cons b bs ih =>
    rw [State.writeBytes, ih]
    rfl

/-- Storing bytes keeps the canonical form of memory. -/
theorem State.writeBytes_wf (a : Addr) (bs : List Byte) (h : s.mem.wf) : (s.writeBytes a bs).mem.wf := by
  induction bs generalizing s a with
  | nil => exact h
  | cons b bs ih => exact ih _ _ (State.writeByte_wf _ _ _ h)

end Sys2Proof.Machine
end

