-- ==== Sys2Proof/Laws/Decode.lean ====
section
/-! SUPPORT. The fields of a word that is built from its fields, and the word that its fields and its bytes build
(30_encoding.md R71, R72; 20_memory.md R52). -/

namespace Sys2Proof

theorem toNat_append {m k : Nat} (a : BitVec m) (b : BitVec k) : (a ++ b).toNat = a.toNat * 2 ^ k + b.toNat := by
  rw [BitVec.toNat_append, ← Nat.shiftLeft_add_eq_or_of_lt b.isLt, Nat.shiftLeft_eq]

theorem toNat_wordXYN (f x y n : Nibble) :
    (wordXYN f x y n).toNat = f.toNat * 4096 + x.toNat * 256 + y.toNat * 16 + n.toNat := by
  have h : (wordXYN f x y n).toNat = (f ++ x ++ y ++ n).toNat := rfl
  rw [h, toNat_append, toNat_append, toNat_append]
  omega

theorem toNat_wordXNN (f x : Nibble) (nn : Byte) :
    (wordXNN f x nn).toNat = f.toNat * 4096 + x.toNat * 256 + nn.toNat := by
  have h : (wordXNN f x nn).toNat = (f ++ x ++ nn).toNat := rfl
  rw [h, toNat_append, toNat_append]
  omega

theorem toNat_wordNNN (f : Nibble) (nnn : BitVec 12) : (wordNNN f nnn).toNat = f.toNat * 4096 + nnn.toNat := by
  have h : (wordNNN f nnn).toNat = (f ++ nnn).toNat := rfl
  rw [h, toNat_append]
  omega

/-! ### Reading a field back -/


@[simp] theorem family_wordXYN (f x y n : Nibble) : Word.family (wordXYN f x y n) = f := by
  apply BitVec.eq_of_toNat_eq
  simp only [Word.family, BitVec.extractLsb'_toNat, toNat_wordXYN, Nat.shiftRight_eq_div_pow]
  have := f.isLt; have := x.isLt; have := y.isLt; have := n.isLt
  omega

@[simp] theorem x_wordXYN (f x y n : Nibble) : Word.x (wordXYN f x y n) = x := by
  apply BitVec.eq_of_toNat_eq
  simp only [Word.x, BitVec.extractLsb'_toNat, toNat_wordXYN, Nat.shiftRight_eq_div_pow]
  have := f.isLt; have := x.isLt; have := y.isLt; have := n.isLt
  omega

@[simp] theorem y_wordXYN (f x y n : Nibble) : Word.y (wordXYN f x y n) = y := by
  apply BitVec.eq_of_toNat_eq
  simp only [Word.y, BitVec.extractLsb'_toNat, toNat_wordXYN, Nat.shiftRight_eq_div_pow]
  have := f.isLt; have := x.isLt; have := y.isLt; have := n.isLt
  omega

@[simp] theorem n_wordXYN (f x y n : Nibble) : Word.n (wordXYN f x y n) = n := by
  apply BitVec.eq_of_toNat_eq
  simp only [Word.n, BitVec.extractLsb'_toNat, toNat_wordXYN, Nat.shiftRight_eq_div_pow]
  have := f.isLt; have := x.isLt; have := y.isLt; have := n.isLt
  omega

@[simp] theorem nn_wordXYN (f x y n : Nibble) : Word.nn (wordXYN f x y n) = y ++ n := by
  apply BitVec.eq_of_toNat_eq
  simp only [Word.nn, BitVec.extractLsb'_toNat, toNat_wordXYN, Nat.shiftRight_eq_div_pow, toNat_append]
  have := f.isLt; have := x.isLt; have := y.isLt; have := n.isLt
  omega

@[simp] theorem family_wordXNN (f x : Nibble) (nn : Byte) : Word.family (wordXNN f x nn) = f := by
  apply BitVec.eq_of_toNat_eq
  simp only [Word.family, BitVec.extractLsb'_toNat, toNat_wordXNN, Nat.shiftRight_eq_div_pow]
  have := f.isLt; have := x.isLt; have := nn.isLt
  omega

@[simp] theorem x_wordXNN (f x : Nibble) (nn : Byte) : Word.x (wordXNN f x nn) = x := by
  apply BitVec.eq_of_toNat_eq
  simp only [Word.x, BitVec.extractLsb'_toNat, toNat_wordXNN, Nat.shiftRight_eq_div_pow]
  have := f.isLt; have := x.isLt; have := nn.isLt
  omega

@[simp] theorem nn_wordXNN (f x : Nibble) (nn : Byte) : Word.nn (wordXNN f x nn) = nn := by
  apply BitVec.eq_of_toNat_eq
  simp only [Word.nn, BitVec.extractLsb'_toNat, toNat_wordXNN, Nat.shiftRight_eq_div_pow]
  have := f.isLt; have := x.isLt; have := nn.isLt
  omega

@[simp] theorem family_wordNNN (f : Nibble) (nnn : BitVec 12) : Word.family (wordNNN f nnn) = f := by
  apply BitVec.eq_of_toNat_eq
  simp only [Word.family, BitVec.extractLsb'_toNat, toNat_wordNNN, Nat.shiftRight_eq_div_pow]
  have := f.isLt; have := nnn.isLt
  omega

@[simp] theorem nnn_wordNNN (f : Nibble) (nnn : BitVec 12) : Word.nnn (wordNNN f nnn) = nnn := by
  apply BitVec.eq_of_toNat_eq
  simp only [Word.nnn, BitVec.extractLsb'_toNat, toNat_wordNNN, Nat.shiftRight_eq_div_pow]
  have := f.isLt; have := nnn.isLt
  omega

/-! ### Building a word from its own fields and bytes -/

theorem wordXYN_fields (w : Word) : wordXYN w.family w.x w.y w.n = w := by
  apply BitVec.eq_of_toNat_eq
  simp only [toNat_wordXYN, Word.family, Word.x, Word.y, Word.n, BitVec.extractLsb'_toNat, Nat.shiftRight_eq_div_pow]
  have := w.isLt
  omega

theorem wordXNN_fields (w : Word) : wordXNN w.family w.x w.nn = w := by
  apply BitVec.eq_of_toNat_eq
  simp only [toNat_wordXNN, Word.family, Word.x, Word.nn, BitVec.extractLsb'_toNat, Nat.shiftRight_eq_div_pow]
  have := w.isLt
  omega

theorem wordNNN_fields (w : Word) : wordNNN w.family w.nnn = w := by
  apply BitVec.eq_of_toNat_eq
  simp only [toNat_wordNNN, Word.family, Word.nnn, BitVec.extractLsb'_toNat, Nat.shiftRight_eq_div_pow]
  have := w.isLt
  omega

/-- The two bytes of a word put together are the word. -/
@[simp] theorem append_wordBytes (w : Word) : w.extractLsb' 8 8 ++ w.extractLsb' 0 8 = w := by
  have h : (w.extractLsb' 8 8 ++ w.extractLsb' 0 8).toNat = w.toNat := by
    rw [toNat_append, BitVec.extractLsb'_toNat, BitVec.extractLsb'_toNat, Nat.shiftRight_eq_div_pow,
      Nat.shiftRight_eq_div_pow]
    have := w.isLt
    omega
  exact BitVec.eq_of_toNat_eq h

/-- The bytes of a word that two bytes build are those bytes. -/
@[simp] theorem wordBytes_append (hi lo : Byte) : wordBytes (hi ++ lo) = [hi, lo] := by
  have h : (hi ++ lo).toNat = hi.toNat * 256 + lo.toNat := toNat_append hi lo
  have := hi.isLt
  have := lo.isLt
  have h1 : BitVec.extractLsb' 8 8 (hi ++ lo) = hi := by
    apply BitVec.eq_of_toNat_eq
    rw [BitVec.extractLsb'_toNat, Nat.shiftRight_eq_div_pow, h]
    omega
  have h2 : BitVec.extractLsb' 0 8 (hi ++ lo) = lo := by
    apply BitVec.eq_of_toNat_eq
    rw [BitVec.extractLsb'_toNat, Nat.shiftRight_eq_div_pow, h]
    omega
  simp only [wordBytes]
  exact congrArg₂ _ h1 (congrArg₂ _ h2 rfl)

/-! ### What the decoder answers -/

/-- A one-word instruction, decoded from its word's bytes with anything after them. -/
theorem decode_wordBytes {w : Word} {i : Instr} (hw : w ≠ longWord) (h : decodeWord w = some i) (rest : List Byte) :
    decode (wordBytes w ++ rest) = .ok (i, rest) := by
  have ha : w.extractLsb' 8 8 ++ w.extractLsb' 0 8 = w := append_wordBytes w
  simp only [wordBytes, List.cons_append, List.nil_append, decode]
  erw [ha]
  simp [hw, h]

/-- Everything an accepted decoding can be: the two-word form, or a one-word instruction of the first word. -/
theorem decode_ok {bytes rest : List Byte} {i : Instr} (h : decode bytes = .ok (i, rest)) :
    (∃ hi lo, bytes = wordBytes longWord ++ hi :: lo :: rest ∧ i = .ldILong (hi ++ lo)) ∨
    (∃ w, w ≠ longWord ∧ bytes = wordBytes w ++ rest ∧ decodeWord w = some i) := by
  match bytes with
  | [] => simp [decode] at h
  | [_] => simp [decode] at h
  | hi :: lo :: tail =>
    simp only [decode] at h
    by_cases hl : hi ++ lo = longWord
    · rw [if_pos hl] at h
      match tail with
      | [] => simp at h
      | [_] => simp at h
      | hi' :: lo' :: rest' =>
        simp only [Except.ok.injEq, Prod.mk.injEq] at h
        refine .inl ⟨hi', lo', ?_, h.1.symm⟩
        rw [← hl, wordBytes_append, ← h.2]
        rfl
    · rw [if_neg hl] at h
      cases hd : decodeWord (hi ++ lo) with
      | none => simp [hd] at h
      | some j =>
        simp only [hd, Except.ok.injEq, Prod.mk.injEq] at h
        refine .inr ⟨hi ++ lo, hl, ?_, h.1 ▸ hd⟩
        rw [wordBytes_append, ← h.2]
        rfl

end Sys2Proof
end

