-- ==== Sys2Proof/Laws/Graphics.lean ====
section
/-! SUPPORT. What the shared operations of Machine/Graphics.lean do to one pixel (43_graphics.md R160 to R174). -/

namespace Sys2Proof.Machine

variable (s : State)

/-- A pixel after a change of the selected planes. -/
theorem State.pixel_mapSelected (f : Plane → Plane) (p : Fin 2) (y : Fin 64) (x : Fin 128) :
    (s.mapSelected f).pixel p y x = if s.selected p then (f (s.plane p))[y].getLsbD x else s.pixel p y x := by
  unfold State.pixel
  rw [State.plane_mapSelected]
  split <;> rfl

/-- A change of the selected planes changes the planes alone. -/
theorem State.mapSelected_eq (f : Plane → Plane) :
    s.mapSelected f = s.setPlanes (Vector.ofFn fun p => if s.selected p then f (s.plane p) else s.plane p) := rfl

/-! ### Scrolls (R162): the pixel that moves in, or 0 -/

theorem Plane.getLsbD_scrollDown (n : Nat) (old : Plane) (y : Fin 64) (x : Nat) :
    (Plane.scrollDown n old)[y].getLsbD x = (if n ≤ y.val then old[y.val - n]?.getD 0 else 0).getLsbD x := by
  simp [Plane.scrollDown]

theorem Plane.getLsbD_scrollUp (n : Nat) (old : Plane) (y : Fin 64) (x : Nat) :
    (Plane.scrollUp n old)[y].getLsbD x = (old[y.val + n]?.getD 0).getLsbD x := by
  simp [Plane.scrollUp]

theorem Plane.getLsbD_scrollRight (n : Nat) (old : Plane) (y : Fin 64) (x : Nat) :
    (Plane.scrollRight n old)[y].getLsbD x = (decide (x < 128) && !decide (x < n) && old[y].getLsbD (x - n)) := by
  simp [Plane.scrollRight]

theorem Plane.getLsbD_scrollLeft (n : Nat) (old : Plane) (y : Fin 64) (x : Nat) :
    (Plane.scrollLeft n old)[y].getLsbD x = old[y].getLsbD (n + x) := by
  simp [Plane.scrollLeft]

/-! ### Placing (R160, R170, R172) -/

/-- `q` lies at the scaled coordinate `(px, py)`: after wrapping, or itself and so only within the plane. -/
def PixelAt.At (wrap : Bool) (px py : Nat) (q : PixelAt) : Prop :=
  if wrap then q.x.val = px % 128 ∧ q.y.val = py % 64 else q.x.val = px ∧ q.y.val = py

theorem mem_placeScaled (wrap : Bool) (p : Fin 2) (px py : Nat) (q : PixelAt) :
    q ∈ placeScaled wrap p px py ↔ q.p = p ∧ q.At wrap px py := by
  obtain ⟨qp, qy, qx⟩ := q
  have := qx.isLt
  have := qy.isLt
  unfold placeScaled PixelAt.At
  cases wrap
  · simp only [Bool.false_eq_true, if_false]
    split
    · next h =>
      simp only [List.mem_singleton, PixelAt.mk.injEq, Fin.ext_iff, Fin.val_ofNat, Nat.mod_eq_of_lt h.1,
        Nat.mod_eq_of_lt h.2]
      omega
    · next h =>
      simp only [List.not_mem_nil, false_iff]
      omega
  · simp only [if_true, List.mem_singleton, PixelAt.mk.injEq, Fin.ext_iff, Fin.val_ofNat]
    omega

/-- The pixels of one logical pixel are its block of `f` by `f` (R160). -/
theorem mem_placePixel (wrap : Bool) (f : Nat) (p : Fin 2) (lx ly : Nat) (q : PixelAt) :
    q ∈ placePixel wrap f p lx ly ↔
      q.p = p ∧ ∃ dy dx, dy < f ∧ dx < f ∧ q.At wrap (lx * f + dx) (ly * f + dy) := by
  simp only [placePixel, List.mem_flatMap, List.mem_range, mem_placeScaled]
  exact ⟨fun ⟨dy, h1, dx, h2, h3, h4⟩ => ⟨h3, dy, dx, h1, h2, h4⟩,
    fun ⟨h3, dy, dx, h1, h2, h4⟩ => ⟨dy, h1, dx, h2, h3, h4⟩⟩

/-- The pixels of one source byte are those of its set bits (R170). -/
theorem mem_placeByte (wrap : Bool) (f : Nat) (p : Fin 2) (byte : Byte) (lx ly : Nat) (q : PixelAt) :
    q ∈ placeByte wrap f p byte lx ly ↔ ∃ c < 8, byte.getLsbD (7 - c) = true ∧ q ∈ placePixel wrap f p (lx + c) ly := by
  simp only [placeByte, List.mem_flatMap, List.mem_range]
  constructor
  · rintro ⟨c, hc, h⟩
    split at h
    · next hb => exact ⟨c, hc, hb, h⟩
    · simp at h
  · rintro ⟨c, hc, hb, h⟩
    exact ⟨c, hc, by simpa [hb] using h⟩

/-! ### Toggling and blitting (R172, R173) -/

/-- A toggle flips its own pixel and no other. -/
theorem pixelOf_togglePixel (ps : Vector Plane 2) (q r : PixelAt) :
    pixelOf (togglePixel ps q) r = (pixelOf ps r ^^ decide (r = q)) := by
  obtain ⟨qp, qy, qx⟩ := q
  obtain ⟨rp, ry, rx⟩ := r
  simp only [pixelOf, togglePixel, PixelAt.mk.injEq]
  by_cases hp : rp = qp
  · subst hp
    by_cases hy : ry = qy
    · subst hy
      by_cases hx : rx = qx
      · subst hx
        simp
      · have hne : (rx : Nat) ≠ qx := fun e => hx (Fin.ext e)
        by_cases hlt : (rx : Nat) < qx
        · simp [hx, hlt]
        · have : ¬ ((rx : Nat) - qx = 0) := by omega
          simp [hx, this]
    · have hne : (qy : Nat) ≠ ry := fun e => hy (Fin.ext e.symm)
      simp [hy, hne]
  · have hne : (qp : Nat) ≠ rp := fun e => hp (Fin.ext e.symm)
    simp [hp, hne]

/-- A blit flips a pixel once for every time it is placed. -/
theorem pixelOf_blit (qs : List PixelAt) (ps : Vector Plane 2) (hit : Bool) (r : PixelAt) :
    pixelOf (blit qs ps hit).1 r = (pixelOf ps r ^^ decide (qs.count r % 2 = 1)) := by
  induction qs generalizing ps hit with
  | nil => simp [blit]
  | cons q qs ih =>
    rw [blit, ih, pixelOf_togglePixel, List.count_cons]
    by_cases h : r = q
    · subst h
      have hd : decide ((qs.count r + 1) % 2 = 1) = !decide (qs.count r % 2 = 1) := by
        rcases Nat.mod_two_eq_zero_or_one (qs.count r) with e | e <;> simp [Nat.add_mod, e]
      simp [hd]
    · have hq : ¬ q = r := fun e => h e.symm
      simp [h, hq]

/-- A blit of distinct pixels has a hit exactly if one of them was set before it. -/
theorem blit_hit (qs : List PixelAt) (ps : Vector Plane 2) (hit : Bool) (hn : qs.Nodup) :
    (blit qs ps hit).2 = (hit || qs.any (pixelOf ps)) := by
  induction qs generalizing ps hit with
  | nil => simp [blit]
  | cons q qs ih =>
    have ⟨hq, hn'⟩ := List.nodup_cons.mp hn
    rw [blit, ih _ _ hn', List.any_cons, Bool.or_assoc]
    have : qs.any (pixelOf (togglePixel ps q)) = qs.any (pixelOf ps) := by
      rw [Bool.eq_iff_iff, List.any_eq_true, List.any_eq_true]
      have hc : ∀ r ∈ qs, pixelOf (togglePixel ps q) r = pixelOf ps r := by
        intro r hr
        have : ¬ r = q := fun e => hq (e ▸ hr)
        rw [pixelOf_togglePixel]
        simp [this]
      exact ⟨fun ⟨r, hr, h⟩ => ⟨r, hr, hc r hr ▸ h⟩, fun ⟨r, hr, h⟩ => ⟨r, hr, (hc r hr).symm ▸ h⟩⟩
    rw [this]

theorem State.pixel_eq_pixelOf (p : Fin 2) (y : Fin 64) (x : Fin 128) :
    s.pixel p y x = pixelOf s.planes ⟨p, y, x⟩ := rfl

end Sys2Proof.Machine
end

