-- ==== Sys2Proof/Laws/PerInstr.lean ====
section
/-! SUPPORT. A statement for every instruction as syntax, with one lemma per constructor: how long its encoding is
(30_encoding.md R70). -/

namespace Sys2Proof.Laws.EncodedLength

/-- The encoding is two words for `F000 NNNN` and one word for every other instruction (R70). -/
def Statement (i : Instr) : Prop :=
  (encode i).length = match i with
    | .ldILong _ => 2
    | _ => 1

theorem scd (n : Nat) : Statement (.scd n) := rfl
theorem scu (n : Nat) : Statement (.scu n) := rfl
theorem cls : Statement .cls := rfl
theorem ret : Statement .ret := rfl
theorem scr : Statement .scr := rfl
theorem scl : Statement .scl := rfl
theorem exit : Statement .exit := rfl
theorem low : Statement .low := rfl
theorem high : Statement .high := rfl
theorem jp (nnn : BitVec 12) : Statement (.jp nnn) := rfl
theorem call (nnn : BitVec 12) : Statement (.call nnn) := rfl
theorem seVxNN (x : Reg) (nn : Byte) : Statement (.seVxNN x nn) := rfl
theorem sneVxNN (x : Reg) (nn : Byte) : Statement (.sneVxNN x nn) := rfl
theorem seVxVy (x y : Reg) : Statement (.seVxVy x y) := rfl
theorem save (x y : Reg) : Statement (.save x y) := rfl
theorem load (x y : Reg) : Statement (.load x y) := rfl
theorem ldVxNN (x : Reg) (nn : Byte) : Statement (.ldVxNN x nn) := rfl
theorem addVxNN (x : Reg) (nn : Byte) : Statement (.addVxNN x nn) := rfl
theorem ldVxVy (x y : Reg) : Statement (.ldVxVy x y) := rfl
theorem orVxVy (x y : Reg) : Statement (.orVxVy x y) := rfl
theorem andVxVy (x y : Reg) : Statement (.andVxVy x y) := rfl
theorem xorVxVy (x y : Reg) : Statement (.xorVxVy x y) := rfl
theorem addVxVy (x y : Reg) : Statement (.addVxVy x y) := rfl
theorem subVxVy (x y : Reg) : Statement (.subVxVy x y) := rfl
theorem shrVxVy (x y : Reg) : Statement (.shrVxVy x y) := rfl
theorem subnVxVy (x y : Reg) : Statement (.subnVxVy x y) := rfl
theorem shlVxVy (x y : Reg) : Statement (.shlVxVy x y) := rfl
theorem sneVxVy (x y : Reg) (n : Nibble) : Statement (.sneVxVy x y n) := rfl
theorem ldINNN (nnn : BitVec 12) : Statement (.ldINNN nnn) := rfl
theorem jpV0 (nnn : BitVec 12) : Statement (.jpV0 nnn) := rfl
theorem rnd (x : Reg) (nn : Byte) : Statement (.rnd x nn) := rfl
theorem drw (x y : Reg) (n : Nat) : Statement (.drw x y n) := rfl
theorem skp (x : Reg) : Statement (.skp x) := rfl
theorem sknp (x : Reg) : Statement (.sknp x) := rfl
theorem ldILong (nnnn : Word) : Statement (.ldILong nnnn) := rfl
theorem plane (n : Nibble) : Statement (.plane n) := rfl
theorem audio : Statement .audio := rfl
theorem ldVxDT (x : Reg) : Statement (.ldVxDT x) := rfl
theorem ldVxK (x : Reg) : Statement (.ldVxK x) := rfl
theorem ldDTVx (x : Reg) : Statement (.ldDTVx x) := rfl
theorem ldSTVx (x : Reg) : Statement (.ldSTVx x) := rfl
theorem addIVx (x : Reg) : Statement (.addIVx x) := rfl
theorem ldFVx (x : Reg) : Statement (.ldFVx x) := rfl
theorem ldHFVx (x : Reg) : Statement (.ldHFVx x) := rfl
theorem ldBVx (x : Reg) : Statement (.ldBVx x) := rfl
theorem ldMemVx (x : Reg) : Statement (.ldMemVx x) := rfl
theorem ldVxMem (x : Reg) : Statement (.ldVxMem x) := rfl
theorem ldRVx (x : Reg) : Statement (.ldRVx x) := rfl
theorem ldVxR (x : Reg) : Statement (.ldVxR x) := rfl

end Sys2Proof.Laws.EncodedLength
end

