-- ==== Sys2Proof/Laws/Step.lean ====
section
/-! SUPPORT. What one cycle can do (60_exceptions.md R206), said once. -/

namespace Sys2Proof.Machine

/-- A cycle of a halted machine changes nothing; any other runs the instruction its bytes decode to, in the state after
the fetch's advance, or reports a word that is none. -/
theorem step_cases (s : State) :
    (s.halted = true ∧ step s = .next s) ∨
    (s.halted = false ∧ ∃ i rest, decode s.fetchBytes = .ok (i, rest) ∧ step s = exec i s.advance) ∨
    (s.halted = false ∧ ∃ e, decode s.fetchBytes = .error e ∧
      step s = .next (s.advance.unrecognized (s.readWord s.pc))) := by
  unfold step
  cases hh : s.halted with
  | true => exact .inl ⟨rfl, rfl⟩
  | false =>
    refine .inr ?_
    cases hd : decode s.fetchBytes with
    | ok p => exact .inl ⟨rfl, p.1, p.2, rfl, rfl⟩
    | error e => exact .inr ⟨rfl, e, rfl, rfl⟩

/-- When a cycle is halted (10_state.md R31, R33). -/
theorem State.halted_eq_false_iff (s : State) : s.halted = false ↔ s.stopped = false ∧ s.fault = .none := by
  simp [State.halted]

/-- Without a recorded fault the invariant is canonical memory and the stack's bound. -/
theorem State.inv_of_no_fault {s : State} (hm : s.mem.wf) (hs : s.sp ≤ stackDepth) (hf : s.fault = .none) : s.Inv :=
  ⟨hm, hs, by simp [hf], by simp [hf]⟩

end Sys2Proof.Machine
end

