-- ==== Sys2Proof/Tests/Slice0.lean ====
section
/-! SUPPORT. The model's own tests. Expected results are the spec's: words are written out from 30_encoding.md R71, R75 to
R79; the single steps are vectors of 95_test_vectors.md, named by its row labels, with its default quirks. Then, for every
statement with hypotheses, a state and operands that meet them. -/

namespace Sys2Proof.Tests

open Sys2Proof.Machine Sys2Proof.Claims

/-! ## Well-formedness: one ill-formed term for each check -/

theorem test_wellFormed_scd : (Instr.scd 15).wellFormed = true ∧ (Instr.scd 16).wellFormed = false := by decide
theorem test_wellFormed_scu : (Instr.scu 15).wellFormed = true ∧ (Instr.scu 16).wellFormed = false := by decide
theorem test_wellFormed_drw : (Instr.drw 1 2 15).wellFormed = true ∧ (Instr.drw 1 2 16).wellFormed = false := by decide

/-! ## Decoding: a word of every row -/

theorem test_decode_family0 :
    decode [0x00, 0xC7] = .ok (.scd 7, []) ∧ decode [0x00, 0xDF] = .ok (.scu 15, []) ∧
    decode [0x00, 0xE0] = .ok (.cls, []) ∧ decode [0x00, 0xEE] = .ok (.ret, []) ∧
    decode [0x00, 0xFB] = .ok (.scr, []) ∧ decode [0x00, 0xFC] = .ok (.scl, []) ∧
    decode [0x00, 0xFD] = .ok (.exit, []) ∧ decode [0x00, 0xFE] = .ok (.low, []) ∧
    decode [0x00, 0xFF] = .ok (.high, []) := by decide

theorem test_decode_control :
    decode [0x1A, 0xBC] = .ok (.jp 0xABC, []) ∧ decode [0x2F, 0x01] = .ok (.call 0xF01, []) ∧
    decode [0x3A, 0x5C] = .ok (.seVxNN 0xA 0x5C, []) ∧ decode [0x4B, 0xC5] = .ok (.sneVxNN 0xB 0xC5, []) ∧
    decode [0x51, 0xE0] = .ok (.seVxVy 0x1 0xE, []) ∧ decode [0x9D, 0x47] = .ok (.sneVxVy 0xD 0x4 0x7, []) ∧
    decode [0xB3, 0x21] = .ok (.jpV0 0x321, []) ∧ decode [0xE6, 0x9E] = .ok (.skp 6, []) ∧
    decode [0xE9, 0xA1] = .ok (.sknp 9, []) := by decide

theorem test_decode_immediate :
    decode [0x6A, 0x42] = .ok (.ldVxNN 0xA 0x42, []) ∧ decode [0x71, 0x02] = .ok (.addVxNN 1 2, []) ∧
    decode [0xC3, 0x0F] = .ok (.rnd 3 0x0F, []) := by decide

theorem test_decode_family8 :
    decode [0x8C, 0x50] = .ok (.ldVxVy 0xC 5, []) ∧ decode [0x8C, 0x51] = .ok (.orVxVy 0xC 5, []) ∧
    decode [0x8C, 0x52] = .ok (.andVxVy 0xC 5, []) ∧ decode [0x8C, 0x53] = .ok (.xorVxVy 0xC 5, []) ∧
    decode [0x8C, 0x54] = .ok (.addVxVy 0xC 5, []) ∧ decode [0x8C, 0x55] = .ok (.subVxVy 0xC 5, []) ∧
    decode [0x8C, 0x56] = .ok (.shrVxVy 0xC 5, []) ∧ decode [0x8C, 0x57] = .ok (.subnVxVy 0xC 5, []) ∧
    decode [0x8C, 0x5E] = .ok (.shlVxVy 0xC 5, []) := by decide

theorem test_decode_graphics :
    decode [0xD1, 0x2F] = .ok (.drw 1 2 15, []) ∧ decode [0xF3, 0x01] = .ok (.plane 3, []) := by decide

theorem test_decode_memory :
    decode [0x53, 0x12] = .ok (.save 3 1, []) ∧ decode [0x53, 0x13] = .ok (.load 3 1, []) ∧
    decode [0xAF, 0x05] = .ok (.ldINNN 0xF05, []) ∧ decode [0xF0, 0x00, 0x12, 0x34] = .ok (.ldILong 0x1234, []) ∧
    decode [0xF0, 0x02] = .ok (.audio, []) ∧ decode [0xF4, 0x1E] = .ok (.addIVx 4, []) := by decide

theorem test_decode_memory_by_register :
    decode [0xF4, 0x29] = .ok (.ldFVx 4, []) ∧ decode [0xF4, 0x30] = .ok (.ldHFVx 4, []) ∧
    decode [0xF4, 0x33] = .ok (.ldBVx 4, []) ∧ decode [0xF4, 0x55] = .ok (.ldMemVx 4, []) ∧
    decode [0xF4, 0x65] = .ok (.ldVxMem 4, []) ∧ decode [0xF4, 0x75] = .ok (.ldRVx 4, []) ∧
    decode [0xF4, 0x85] = .ok (.ldVxR 4, []) := by decide

theorem test_decode_system :
    decode [0xFE, 0x07] = .ok (.ldVxDT 0xE, []) ∧ decode [0xFE, 0x0A] = .ok (.ldVxK 0xE, []) ∧
    decode [0xFE, 0x15] = .ok (.ldDTVx 0xE, []) ∧ decode [0xFE, 0x18] = .ok (.ldSTVx 0xE, []) := by decide

/-- Words of the table 2.6 that are no instruction. -/
theorem test_decode_unrecognized :
    decode [0x01, 0xE0] = .error (.unrecognized 0x01E0) ∧ decode [0x00, 0xB0] = .error (.unrecognized 0x00B0) ∧
    decode [0x51, 0x21] = .error (.unrecognized 0x5121) ∧ decode [0x81, 0x2D] = .error (.unrecognized 0x812D) ∧
    decode [0xE1, 0x9F] = .error (.unrecognized 0xE19F) ∧ decode [0xF1, 0x02] = .error (.unrecognized 0xF102) ∧
    decode [0xF1, 0x00] = .error (.unrecognized 0xF100) ∧ decode [0xF1, 0x3A] = .error (.unrecognized 0xF13A) := by
  decide

/-- The table's numbering: a one-word row, and the two-word row with its first word in the upper half (log 7). -/
theorem test_decodeTableWord :
    decodeTableWord 16 0x8124 = some (.addVxVy 1 2) ∧ decodeTableWord 32 0xF0001234 = some (.ldILong 0x1234) ∧
    decodeTableWord 32 0xF0000000 = some (.ldILong 0) ∧ decodeTableWord 32 0x1234F000 = some (.ldILong 0x1234) ∧
    decodeTableWord 16 0x5121 = none := by decide

/-! ## A small state -/

/-- The default quirks of 95_test_vectors.md, the shift source chosen. -/
def quirks (shiftUsesVy wrap : Bool) : Quirks := ⟨shiftUsesVy, true, true, wrap⟩

/-- The state of 95_test_vectors.md: after reset, `redraw` cleared, with two registers and `I` given. -/
def state (x : Reg) (vx : Byte) (y : Reg) (vy : Byte) (i : Addr := 0) : State :=
  { ((State.reset.writeV x vx).writeV y vy).setI i with
    quirks := quirks true false, redraw := false, userFlags := Vector.replicate 8 0, audioBuffer := Vector.replicate 16 0 }

/-- What an instruction leaves. -/
def after (i : Instr) (s : State) : State :=
  match exec i s with
  | .next t => t
  | .fault _ => s
  | .refused _ => s

/-- What a cycle leaves that finds a word at `pc`. -/
def cycle (w : Word) (s : State) : State :=
  match step (s.writeBytes s.pc (wordBytes w)) with
  | .next t => t
  | .fault _ => s
  | .refused _ => s

/-- A pixel set. -/
def withPixel (s : State) (p : Fin 2) (x : Fin 128) (y : Fin 64) : State := s.setPlanes (togglePixel s.planes ⟨p, y, x⟩)

/-! ## 40_alu.md -/

theorem test_ldVxNN : (cycle 0x6A42 (state 0 0 0 0)).readV 0xA = 0x42 := by decide
theorem test_addVxNN_a3 :
    (cycle 0x7102 (state 1 0xFF 15 0x55)).readV 1 = 1 ∧ (cycle 0x7102 (state 1 0xFF 15 0x55)).readV 15 = 0x55 := by decide
theorem test_ldVxVy_a5 : (cycle 0x8120 (state 1 1 2 0xAB)).readV 1 = 0xAB := by decide
theorem test_orVxVy_a8 : (cycle 0x8F21 (state 15 0xF0 2 0x0F)).readV 15 = 0xFF := by decide
theorem test_andVxVy_a9 : (cycle 0x8122 (state 1 0x0C 2 0x0A)).readV 1 = 0x08 := by decide
theorem test_xorVxVy_a10 : (cycle 0x8123 (state 1 0x0C 2 0x0A)).readV 1 = 0x06 := by decide
theorem test_addVxVy_a13 :
    (cycle 0x8124 (state 1 0xFF 2 0xFF)).readV 1 = 0xFE ∧ (cycle 0x8124 (state 1 0xFF 2 0xFF)).readV 15 = 1 := by decide
theorem test_addVxVy_a16 : (cycle 0x8FF4 (state 15 0x7F 15 0x7F)).readV 15 = 0 := by decide
theorem test_subVxVy_a19 :
    (cycle 0x81F5 (state 1 0x10 15 1)).readV 1 = 0x0F ∧ (cycle 0x81F5 (state 1 0x10 15 1)).readV 15 = 1 := by decide
theorem test_subVxVy_S3 : (cycle 0x8F25 (state 15 5 2 7)).readV 15 = 0 := by decide
theorem test_shrVxVy_a26 :
    (cycle 0x8126 (state 1 1 2 0xFF)).readV 1 = 0x7F ∧ (cycle 0x8126 (state 1 1 2 0xFF)).readV 15 = 1 := by decide
theorem test_shrVxVy_a27 :
    (cycle 0x8126 { state 1 1 2 0xFF with quirks := quirks false false }).readV 1 = 0 := by decide
theorem test_subnVxVy_a22 :
    (cycle 0x8127 (state 1 7 2 5)).readV 1 = 0xFE ∧ (cycle 0x8127 (state 1 7 2 5)).readV 15 = 0 := by decide
theorem test_shlVxVy_a34 :
    (cycle 0x812E (state 1 0x7F 2 0x80)).readV 1 = 0 ∧ (cycle 0x812E (state 1 0x7F 2 0x80)).readV 15 = 1 := by decide
theorem test_shlVxVy_a33 :
    (cycle 0x812E { state 1 0x7F 2 0x80 with quirks := quirks false false }).readV 1 = 0xFE := by decide
theorem test_rnd_a37 : (after (.rnd 1 0) (state 1 9 0 0)).readV 1 = 0 := by
  have h : ∀ b : Byte, b &&& 0 = 0 := by decide
  exact (State.readV_writeV_same _ _ _).trans (h _)

/-! ## 41_memory_ops.md -/

theorem test_ldINNN_m2 : (cycle 0xA000 (state 0 0 0 0 0x1234)).I = 0 := by decide
theorem test_ldILong_m4 :
    (cycle 0xF000 (((state 0 0 0 0).writeBytes 0 [0xAB, 0xCD]).setPc 0xFFFE)).I = 0xABCD ∧
    (cycle 0xF000 (((state 0 0 0 0).writeBytes 0 [0xAB, 0xCD]).setPc 0xFFFE)).pc = 2 := by decide
theorem test_addIVx_m5 : (cycle 0xF01E (state 0 1 15 0x55 0x0FFF)).I = 0x1000 := by decide
theorem test_addIVx_m6 : (cycle 0xF01E (state 0 1 0 1 0xFFFF)).I = 0 := by decide
theorem test_ldFVx_m8 : (cycle 0xF029 (state 0 0x1A 0 0x1A)).I = 50 := by decide
theorem test_ldHFVx_m10 : (cycle 0xF030 (state 0 0x0A 0 0x0A)).I = 180 := by decide
theorem test_ldBVx_m14 :
    (cycle 0xF033 (state 0 123 0 123 0x0FFE)).readByte 0x0FFE = 1 ∧
    (cycle 0xF033 (state 0 123 0 123 0x0FFE)).readByte 0x0FFF = 2 ∧
    (cycle 0xF033 (state 0 123 0 123 0x0FFE)).readByte 0x0000 = 3 := by decide
theorem test_ldBVx_m12 :
    (cycle 0xF033 (state 0 0xFF 0 0xFF 0x300)).mem.listed 0x301 = some 5 := by decide
theorem test_ldMemVx_m19 :
    (cycle 0xF155 (state 0 0xAA 1 0xBB 0x1000)).readByte 1 = 0xBB ∧
    (cycle 0xF155 (state 0 0xAA 1 0xBB 0x1000)).mem.listed 0x1000 = none ∧
    (cycle 0xF155 (state 0 0xAA 1 0xBB 0x1000)).I = 0x1002 := by decide
theorem test_ldVxMem_m22 :
    (cycle 0xF165 ((state 0 0 0 0 0x1000).writeBytes 0 [0xAA, 0xBB])).readV 0 = 0xAA ∧
    (cycle 0xF165 ((state 0 0 0 0 0x1000).writeBytes 0 [0xAA, 0xBB])).readV 1 = 0xBB := by decide
theorem test_save_S9 :
    (cycle 0x5312 (state 1 0xB1 3 0xB3 0x500)).readByte 0x500 = 0xB3 ∧
    (cycle 0x5312 (state 1 0xB1 3 0xB3 0x500)).readByte 0x502 = 0xB1 ∧
    (cycle 0x5312 (state 1 0xB1 3 0xB3 0x500)).I = 0x500 := by decide
theorem test_load_m26 :
    (cycle 0x5023 ((state 0 0 0 0 0x300).writeBytes 0x300 [0x10, 0x11, 0x12])).readV 2 = 0x12 ∧
    (cycle 0x5023 ((state 0 0 0 0 0x300).writeBytes 0x300 [0x10, 0x11, 0x12])).readV 3 = 0 := by decide
theorem test_ldRVx_m28 :
    (cycle 0xFF75 (state 7 0x17 8 0x18)).userFlags[7] = 0x17 ∧ (cycle 0xFF75 (state 7 0x17 8 0x18)).userFlags[0] = 0 := by
  decide
theorem test_ldVxR_m29 :
    (cycle 0xFF85 ((state 7 0x17 8 0x18).writeFlag 7 0x87)).readV 7 = 0x87 ∧
    (cycle 0xFF85 ((state 7 0x17 8 0x18).writeFlag 7 0x87)).readV 8 = 0x18 := by decide
theorem test_audio_m32 :
    (after .audio ((state 0 0 0 0 0xFFF8).writeByte 7 0x42)).audioBuffer[15] = 0x42 := by decide

/-! ## 42_control_flow.md -/

theorem test_jp : (cycle 0x1200 (state 0 0 0 0)).pc = 0x200 := by decide
theorem test_call_f4 :
    (cycle 0x2300 { state 0 0 0 0 with sp := 15 }).stack[15] = 0x202 ∧
    (cycle 0x2300 { state 0 0 0 0 with sp := 15 }).sp = 16 := by decide
theorem test_call_f5 :
    (cycle 0x2300 { state 0 0 0 0 with sp := 16 }).fault = .stackOverflow 0x200 ∧
    (cycle 0x2300 { state 0 0 0 0 with sp := 16 }).pc = 0x200 := by decide
theorem test_ret_f7 : (cycle 0x00EE ((state 0 0 0 0).push 0x204)).pc = 0x204 := by decide
theorem test_ret_f8 :
    (cycle 0x00EE (state 0 0 0 0)).fault = .stackUnderflow 0x200 ∧ (cycle 0x00EE (state 0 0 0 0)).pc = 0x200 := by decide
theorem test_jpV0_f10 : (cycle 0xBFFF (state 0 2 0 2)).pc = 1 := by decide
theorem test_seVxNN_f12 : (cycle 0x3100 ((state 0 0 0 0).writeBytes 0x202 [0xF0, 0x00])).pc = 0x206 := by decide
theorem test_seVxNN_f13 : (cycle 0x3100 ((state 0 0 0 0).writeBytes 0x202 [0xF0, 0x01])).pc = 0x204 := by decide
theorem test_sneVxNN_f15 : (cycle 0x4100 ((state 0 0 0 0).writeBytes 0x202 [0x12, 0x34])).pc = 0x202 := by decide
theorem test_seVxVy_f18 : (cycle 0x5120 ((state 1 9 2 9).writeBytes 0x202 [0xF0, 0x00])).pc = 0x206 := by decide
theorem test_sneVxVy_f21 : (cycle 0x9125 ((state 1 1 2 2).writeBytes 0x202 [0x12, 0x34])).pc = 0x204 := by decide
theorem test_skp_f23 :
    (cycle 0xE09E (((state 0 0x15 0 0x15).setKeys 0x0020).writeBytes 0x202 [0x12, 0x34])).pc = 0x204 := by decide
theorem test_sknp_f24 :
    (cycle 0xE0A1 (((state 0 5 0 5).setKeys 0x0020).writeBytes 0x202 [0x12, 0x34])).pc = 0x202 := by decide

/-! ## 43_graphics.md -/

theorem test_cls_g2 :
    (cycle 0x00E0 (withPixel (withPixel ((state 0 0 0 0).setPlaneSelect 2) 0 1 1) 1 2 2)).pixel 0 1 1 = true ∧
    (cycle 0x00E0 (withPixel (withPixel ((state 0 0 0 0).setPlaneSelect 2) 0 1 1) 1 2 2)).pixel 1 2 2 = false := by decide
theorem test_scd_g5 :
    (cycle 0x00C3 (withPixel (state 0 0 0 0) 0 5 0)).pixel 0 3 5 = true ∧
    (cycle 0x00C3 (withPixel (state 0 0 0 0) 0 5 0)).pixel 0 0 5 = false := by decide
theorem test_scu_g10 : (cycle 0x00D3 (withPixel (state 0 0 0 0) 0 5 3)).pixel 0 0 5 = true := by decide
theorem test_scr_g11 : (cycle 0x00FB (withPixel (state 0 0 0 0) 0 123 0)).pixel 0 0 127 = true := by decide
theorem test_scl_g12 : (cycle 0x00FC (withPixel (state 0 0 0 0) 0 5 0)).pixel 0 0 1 = true := by decide
theorem test_low_g13 :
    (cycle 0x00FE (withPixel ((state 0 0 0 0).setHiRes true) 1 2 2)).pixel 1 2 2 = false ∧
    (cycle 0x00FE (withPixel ((state 0 0 0 0).setHiRes true) 1 2 2)).hiRes = false := by decide
theorem test_high_g15 : (cycle 0x00FF (state 0 0 0 0)).hiRes = true ∧ (cycle 0x00FF (state 0 0 0 0)).redraw = true := by
  decide
theorem test_plane_g20 : (cycle 0xF401 (state 0 0 0 0)).bitPlaneSelect = 0 := by decide

/-- g24: a low-resolution pixel is a block of two by two, and a block that was partly set collides. -/
theorem test_drw_g24 :
    let t := cycle 0xD121 (withPixel ((state 1 5 2 2 0x300).writeByte 0x300 0x80) 0 11 5)
    t.pixel 0 4 10 = true ∧ t.pixel 0 5 11 = false ∧ t.readV 15 = 1 := by decide

/-- g42 and S6: the sprite's address wraps at the top of memory, and its pixels at the right edge under the quirk. -/
theorem test_drw_g42_S6 :
    let s := ((state 0 0x7F 1 0 0xFFFF).setHiRes true).writeBytes 0xFFFF [0xC0, 0x40]
    let t := cycle 0xD012 { s with quirks := quirks true true }
    t.pixel 0 0 127 = true ∧ t.pixel 0 0 0 = true ∧ t.pixel 0 1 0 = true ∧ (cycle 0xD012 s).pixel 0 0 0 = false := by
  decide

/-! ## 44_timer_key_system.md and 60_exceptions.md -/

theorem test_ldVxDT : (cycle 0xF207 ((state 0 0 0 0).setDelayTimer 0x3B)).readV 2 = 0x3B := by decide
theorem test_ldDTVx : (cycle 0xF015 (state 0 0x3C 0 0x3C)).delayTimer = 0x3C := by decide
theorem test_ldSTVx : (cycle 0xF018 (state 0 2 0 2)).soundTimer = 2 := by decide
theorem test_ldVxK_t8 :
    (cycle 0xF10A (state 0 0 0 0)).pc = 0x200 ∧ (cycle 0xF10A (state 0 0 0 0)).waitRegister = 1 := by decide
theorem test_ldVxK_t9 :
    (cycle 0xF10A ((state 0 0 0 0).setKeys 0x0008)).pc = 0x202 ∧
    (cycle 0xF10A ((state 0 0 0 0).setKeys 0x0008)).waitingForKey = false := by decide
theorem test_exit_t17 :
    (cycle 0x00FD ((state 0 0 0 0).setPc 0x210)).pc = 0x210 ∧
    (cycle 0x00FD ((state 0 0 0 0).setPc 0x210)).stopped = true := by decide
theorem test_tick_t4 : ((state 0 0 0 0).setDelayTimer 2).tick.delayTimer = 1 ∧ (state 0 0 0 0).tick.delayTimer = 0 := by decide
theorem test_keyUpdate_t12 :
    ((((state 0 0 0 0).armWait 1).keyUpdate 0x0208).keyUpdate 0).readV 1 = 3 ∧
    ((((state 0 0 0 0).armWait 1).keyUpdate 0x0208).keyUpdate 0).waitingForKey = false := by decide
theorem test_unrecognized :
    (cycle 0x8128 (state 0 0 0 0)).pc = 0x202 ∧ (cycle 0x8128 (state 0 0 0 0)).diag = [⟨0x8128, 0x200⟩] := by decide
theorem test_reset_fonts :
    ((state 0 0 0 0).writeBytes 0 [1, 2]).resetEvent.readByte 0 = 0xF0 ∧
    ((state 0 0 0 0).writeBytes 180 [1, 2]).resetEvent.readByte 181 = 2 := by decide
theorem test_admissible :
    admissible [.setQuirks (quirks true true), .reset, .cycle, .tick] = true ∧
    admissible [.reset, .cycle, .setQuirks (quirks true true)] = false := by decide

/-- The first instruction after reset, as the host places it: a one-word row and the two-word row. -/
theorem test_withFetchWord :
    (∃ t, step (State.reset.withFetchWord 16 0x6A42) = .next t ∧ t.readV 0xA = 0x42 ∧ t.pc = 0x202) ∧
    (∃ t, step (State.reset.withFetchWord 32 0xF0001234) = .next t ∧ t.I = 0x1234 ∧ t.pc = 0x204) :=
  ⟨⟨_, rfl, by decide, by decide⟩, ⟨_, rfl, by decide, by decide⟩⟩

/-! ## Witnesses: for every statement with hypotheses, a state and operands that meet them, at the boundary values -/

/-- `state` with a register pair of zeros, its invariant, and bytes at `pc`. -/
def zeros : State := state 0 0 0 0
def at200 (bs : List Byte) : State := zeros.writeBytes 0x200 bs

theorem zeros_inv : zeros.Inv :=
  State.inv_of_no_fault ⟨List.Pairwise.nil, fun _ h => absurd h List.not_mem_nil⟩ (by decide) rfl

/-- LengthToldByFirstWord: both lengths. -/
theorem witness_LengthToldByFirstWord :
    decode [0xF0, 0x00, 0xAB, 0xCD, 0xEF] = .ok (.ldILong 0xABCD, [0xEF]) ∧
    decode [0x60, 0x01, 0xAB] = .ok (.ldVxNN 0 1, [0xAB]) := by decide

/-- DecodeAfterEncode: the greatest count. -/
theorem witness_DecodeAfterEncode : (Instr.drw 15 15 15).wellFormed = true := by decide

/-- EncodeAfterDecode. -/
theorem witness_EncodeAfterDecode : decode [0x00, 0xCF] = .ok (.scd 15, []) := by decide

/-- CycleRunsDecodedInstruction: a halted state of either kind; a word that is an instruction; a word that is none. -/
theorem witness_CycleRunsDecodedInstruction :
    (zeros.stop.stopped = true ∧ (zeros.setFault (.stackUnderflow 0x200)).fault ≠ .none) ∧
    ((at200 [0x60, 0x01, 0, 0]).stopped = false ∧ (at200 [0x60, 0x01, 0, 0]).fault = .none ∧
      decode (at200 [0x60, 0x01, 0, 0]).fetchBytes = .ok (.ldVxNN 0 1, [0, 0])) ∧
    ((at200 [0x00, 0xC0 - 1]).stopped = false ∧ (at200 [0x00, 0xC0 - 1]).fault = .none ∧
      Unrecognized ((at200 [0x00, 0xC0 - 1]).readByte 0x200 ++ (at200 [0x00, 0xC0 - 1]).readByte 0x201)) :=
  ⟨⟨rfl, by decide⟩, ⟨rfl, rfl, by decide⟩, rfl, rfl, .inl (by decide)⟩

/-- CycleKeepsInvariant, and so RunsKeepInvariant: a cycle that records a fault. -/
theorem witness_CycleKeepsInvariant :
    (at200 [0x00, 0xEE, 0, 0]).Inv ∧ ∃ t, step (at200 [0x00, 0xEE, 0, 0]) = .next t ∧ t.fault = .stackUnderflow 0x200 :=
  ⟨State.inv_of_no_fault (State.writeBytes_wf _ _ _ zeros_inv.1) (by decide) rfl, _, rfl, by decide⟩

/-- RunsKeepInvariant: a run of several kinds of events. -/
theorem witness_RunsKeepInvariant :
    zeros.Inv ∧ ∃ t, zeros.runEvents [.hostWrite 0x200 0xF1, .hostWrite 0x201 0x0A, .keyUpdate 1, .tick, .reset] = .next t :=
  ⟨zeros_inv, _, rfl⟩

/-- PcAfterCycle: the second clause, with the deepest stack. -/
theorem witness_PcAfterCycle :
    ({ at200 [0x23, 0x00, 0, 0] with sp := 16 }).Inv ∧
    decode ({ at200 [0x23, 0x00, 0, 0] with sp := 16 }).fetchBytes = .ok (.call 0x300, [0, 0]) :=
  ⟨State.inv_of_no_fault (State.writeBytes_wf _ _ _ zeros_inv.1) (by decide) rfl, by decide⟩

/-- StackFaultIsPreciseAndSticky: a call on a full stack, a return on an empty one. -/
theorem witness_StackFaultIsPreciseAndSticky :
    (({ at200 [0x23, 0x00, 0, 0] with sp := 16 }).fault = .none ∧
      decode ({ at200 [0x23, 0x00, 0, 0] with sp := 16 }).fetchBytes = .ok (.call 0x300, [0, 0])) ∧
    ((at200 [0x00, 0xEE, 0, 0]).sp = 0 ∧ (at200 [0x00, 0xEE, 0, 0]).fault = .none ∧
      decode (at200 [0x00, 0xEE, 0, 0]).fetchBytes = .ok (.ret, [0, 0])) :=
  ⟨⟨rfl, by decide⟩, rfl, rfl, by decide⟩

/-- ControlStateHasItsWriters: for each piece of state an instruction that changes it. -/
theorem witness_ControlStateHasItsWriters :
    (after .high zeros).hiRes ≠ zeros.hiRes ∧ (after (.plane 2) zeros).bitPlaneSelect ≠ zeros.bitPlaneSelect ∧
    (after .exit zeros).stopped ≠ zeros.stopped ∧ (after (.ldVxK 0) zeros).waitingForKey ≠ zeros.waitingForKey ∧
    (after (.ldVxK 1) zeros).waitRegister ≠ zeros.waitRegister ∧
    (after (.ldDTVx 0) (state 0 1 0 1)).delayTimer ≠ (state 0 1 0 1).delayTimer ∧
    (after (.ldSTVx 0) (state 0 1 0 1)).soundTimer ≠ (state 0 1 0 1).soundTimer ∧
    (after (.ldRVx 0) (state 0 1 0 1)).userFlags ≠ (state 0 1 0 1).userFlags ∧
    (after (.call 0) zeros).stack ≠ zeros.stack ∧ (after (.call 0) zeros).sp ≠ zeros.sp ∧
    (after .ret zeros).fault ≠ zeros.fault ∧ (after (.rnd 0 0) zeros).draws ≠ zeros.draws := by
  refine ⟨by decide, by decide, by decide, by decide, by decide, by decide, by decide, by decide, by decide, by decide,
    by decide, by decide⟩

/-- ControlStateHasItsWriters: the audio pattern, copied from the font region. -/
theorem witness_ControlStateHasItsWriters_audio : (after .audio zeros).audioBuffer ≠ zeros.audioBuffer :=
  fun h => absurd (congrArg (fun a => a[0]) h) (by decide)

/-- MemoryAndPlanesHaveTheirWriters. -/
theorem witness_MemoryAndPlanesHaveTheirWriters :
    (∃ a, (after (.ldBVx 0) zeros).readByte a ≠ zeros.readByte a) ∧ (after .cls zeros).redraw ≠ zeros.redraw ∧
    (after (.ldINNN 1) zeros).I ≠ zeros.I ∧ (after (.ldMemVx 0) zeros).I ≠ zeros.I := by
  refine ⟨⟨0, by decide⟩, by decide, by decide, by decide⟩

/-- RegistersChangeOnlyAsNamed: a destination, and `VF` as a flag. -/
theorem witness_RegistersChangeOnlyAsNamed :
    (after (.ldVxNN 3 7) zeros).readV 3 ≠ zeros.readV 3 ∧ (after (.subVxVy 3 3) zeros).readV 15 ≠ zeros.readV 15 := by decide

/-- ShiftsUseQuirkSource: a source for each setting of the quirk. -/
theorem witness_ShiftsUseQuirkSource :
    (0x81 : Byte) = (if (state 1 7 2 0x81).quirks.shiftUsesVy = true then (state 1 7 2 0x81).readV 2
      else (state 1 7 2 0x81).readV 1) ∧
    (7 : Byte) = (if ({ state 1 7 2 0x81 with quirks := quirks false false }).quirks.shiftUsesVy = true
      then (state 1 7 2 0x81).readV 2 else (state 1 7 2 0x81).readV 1) := by decide

/-- LongLoadIndexTakesSecondWord: the cycle. -/
theorem witness_LongLoadIndexTakesSecondWord :
    (at200 [0xF0, 0x00, 0x12, 0x34]).stopped = false ∧ (at200 [0xF0, 0x00, 0x12, 0x34]).fault = .none ∧
    (at200 [0xF0, 0x00, 0x12, 0x34]).readByte 0x200 = 0xF0 ∧ (at200 [0xF0, 0x00, 0x12, 0x34]).readByte 0x201 = 0x00 :=
  ⟨rfl, rfl, by decide, by decide⟩

/-- StoreThenLoadRestoresRegisters, and the ranges of its clause at the greatest register. -/
theorem witness_StoreThenLoadRestoresRegisters :
    ∃ t u, exec (.ldMemVx 15) (state 15 9 0 1 0x300) = .next t ∧
      exec (.ldVxMem 15) { t with V := Vector.replicate 16 0, I := 0x300 } = .next u ∧ (15 : Reg).toNat ≤ (15 : Reg).toNat :=
  ⟨_, _, rfl, rfl, Nat.le_refl _⟩

/-- SaveStoresRegisterRange and LoadReadsRegisterRange: a range in each direction, its last offset, and the registers
below and above it. -/
theorem witness_register_ranges :
    ((1 : Reg).toNat ≤ (3 : Reg).toNat ∧ 2 ≤ (3 : Reg).toNat - (1 : Reg).toNat) ∧
    ((1 : Reg).toNat < (3 : Reg).toNat ∧ 2 ≤ (3 : Reg).toNat - (1 : Reg).toNat) ∧
    (0 : Reg).toNat < min (1 : Reg).toNat (3 : Reg).toNat ∧ max (1 : Reg).toNat (3 : Reg).toNat < (4 : Reg).toNat := by decide

/-- StoreRegistersWritesMaskedBlock, LoadRegistersReadsMaskedBlock, FlagBytesSaveAndRestore: the last register moved, and
one that is not. -/
theorem witness_register_bounds :
    (15 : Reg).toNat ≤ (15 : Reg).toNat ∧ (14 : Reg).toNat < (15 : Reg).toNat ∧
    (7 : Fin 8).val ≤ min (15 : Reg).toNat 7 ∧ min (15 : Reg).toNat 7 < (8 : Reg).toNat := by decide

/-- MemoryHoldsLastWrite: a memory in canonical form and two addresses. -/
theorem witness_MemoryHoldsLastWrite : (zeros.writeByte 0x300 1).mem.wf ∧ (0x0000 : Addr) ≠ 0xFFFF := by decide

/-- CallPushesOrOverflows: the last free slot, and a full stack. -/
theorem witness_CallPushesOrOverflows :
    ({ zeros with sp := 15 }).sp < 16 ∧ ({ zeros with sp := 16 }).sp = 16 := by decide

/-- ReturnPopsOrUnderflows: one address, a full stack, none. -/
theorem witness_ReturnPopsOrUnderflows :
    (0 < ({ zeros with sp := 1 }).sp ∧ ({ zeros with sp := 1 }).sp ≤ 16) ∧
    (0 < ({ zeros with sp := 16 }).sp ∧ ({ zeros with sp := 16 }).sp ≤ 16) ∧ zeros.sp = 0 := by decide

/-- RegisterSkipsFollowConditions and KeySkipsFollowKeys: both widths. -/
theorem witness_SkipWidths :
    (4 : Addr) = (if (at200 [0xF0, 0x00]).readByte 0x200 ++ (at200 [0xF0, 0x00]).readByte 0x201 = 0xF000#16 then 4 else 2) ∧
    (2 : Addr) = (if (at200 [0xF0, 0x01]).readByte 0x200 ++ (at200 [0xF0, 0x01]).readByte 0x201 = 0xF000#16 then 4 else 2) :=
  by decide

/-- VerticalScrollsMoveRows: the least and the greatest count. -/
theorem witness_VerticalScrollsMoveRows : (0 : Nat) < 16 ∧ (15 : Nat) < 16 := by decide

/-- One pixel of a one-row sprite in high resolution: `I = 0x300`, the byte 0x80 there. -/
def sprite : State := ((state 1 5 2 2 0x300).setHiRes true).writeByte 0x300 0x80

/-- DrawFlipsExactlyThePlacedPixels: a placed pixel, set before or not; every placed pixel clear. -/
theorem witness_DrawFlipsExactlyThePlacedPixels :
    (1 : Nat) < 16 ∧ Placed sprite (sprite.readV 1).toNat (sprite.readV 2).toNat 1 0 2 5 ∧
    ¬ Placed sprite (sprite.readV 1).toNat (sprite.readV 2).toNat 1 1 2 5 ∧
    (Placed (withPixel sprite 0 5 2) ((withPixel sprite 0 5 2).readV 1).toNat ((withPixel sprite 0 5 2).readV 2).toNat 1 0 2 5 ∧
      (withPixel sprite 0 5 2).pixel 0 2 5 = true) ∧
    (∀ p py px, Placed sprite (sprite.readV 1).toNat (sprite.readV 2).toNat 1 p py px → sprite.pixel p py px = false) := by
  refine ⟨by decide, ⟨by decide, 0, 0, 0, 0, ?_⟩, fun h => absurd h.1 (by decide), ⟨⟨by decide, 0, 0, 0, 0, ?_⟩, by decide⟩, ?_⟩
  · decide
  · decide
  · intro p py px _
    simp [sprite, state, State.pixel, State.plane, State.reset, State.setHiRes, State.writeByte, State.setI, State.writeV]

/-- DrawingTwiceRestoresPixels. -/
theorem witness_DrawingTwiceRestoresPixels :
    (1 : Nat) < 16 ∧ (1 : Reg) ≠ regF ∧ (2 : Reg) ≠ regF ∧
    ∃ t u, exec (.drw 1 2 1) sprite = .next t ∧ exec (.drw 1 2 1) t = .next u :=
  ⟨by decide, by decide, by decide, _, _, rfl, rfl⟩

/-- WaitForKeyRewindsUntilPress: no key, and one key. -/
theorem witness_WaitForKeyRewindsUntilPress :
    (∀ k < 16, zeros.keys.getLsbD k = false) ∧ ∃ k < 16, (zeros.setKeys 0x8000).keys.getLsbD k = true :=
  ⟨by decide, 15, by decide, by decide⟩

/-- TickCountsTimersDown. -/
theorem witness_TickCountsTimersDown : ∃ t, (zeros.setDelayTimer 1).handle .tick = .next t := ⟨_, rfl⟩

/-- KeyReleaseCommitsLowestKey: a release under a wait, the lowest of two; no wait; no release. -/
theorem witness_KeyReleaseCommitsLowestKey :
    (∃ t, ((zeros.armWait 1).setKeys 0x8008).handle (.keyUpdate 0) = .next t) ∧
    ((zeros.armWait 1).setKeys 0x8008).waitingForKey = true ∧
    ((zeros.armWait 1).setKeys 0x8008).keys.getLsbD 3 = true ∧ (0 : BitVec 16).getLsbD 3 = false ∧
    (∀ j < 3, ¬ (((zeros.armWait 1).setKeys 0x8008).keys.getLsbD j = true ∧ (0 : BitVec 16).getLsbD j = false)) ∧
    zeros.waitingForKey = false ∧
    (∀ k < 16, ¬ ((zeros.armWait 1).keys.getLsbD k = true ∧ (0 : BitVec 16).getLsbD k = false)) :=
  ⟨⟨_, rfl⟩, rfl, by decide, by decide, by decide, rfl, by decide⟩

/-- OnlyResetEndsAHalt: a stopped and a faulted state, under a cycle and a host event. -/
theorem witness_OnlyResetEndsAHalt :
    Event.cycle ≠ .reset ∧ (∃ t, zeros.stop.handle .cycle = .next t) ∧ zeros.stop.stopped = true ∧
    (∃ t, (zeros.setFault (.stackOverflow 0)).handle .tick = .next t) ∧
    (zeros.setFault (.stackOverflow 0)).fault ≠ .none :=
  ⟨by decide, ⟨_, rfl⟩, rfl, ⟨_, rfl⟩, by decide⟩

/-- OnlyCycleAndResetMovePc: an event that writes a register. -/
theorem witness_OnlyCycleAndResetMovePc :
    Event.keyUpdate 0 ≠ .reset ∧ Event.keyUpdate 0 ≠ .cycle ∧
    ∃ t, ((zeros.armWait 1).setKeys 0x0008).handle (.keyUpdate 0) = .next t :=
  ⟨by decide, by decide, _, rfl⟩

/-- QuirksAreConstantOnceRunning: a run with a later reset. -/
theorem witness_QuirksAreConstantOnceRunning :
    admissible [.cycle, .keyUpdate 1, .reset] = true ∧
    ∃ t, (at200 [0x60, 0x01]).runEvents [.cycle, .keyUpdate 1, .reset] = .next t :=
  ⟨by decide, _, rfl⟩

/-- ResetEventSetsAndKeeps and MachineStartsFromResetValues: the last byte of each glyph table and the first above them. -/
theorem witness_ResetEventSetsAndKeeps :
    (79 : Addr).toNat < 80 ∧ (80 ≤ (80 : Addr).toNat ∧ (80 : Addr).toNat < 180) ∧
    (80 ≤ (179 : Addr).toNat ∧ (179 : Addr).toNat < 180) ∧ 180 ≤ (180 : Addr).toNat := by decide

end Sys2Proof.Tests
end

/-! How many bytes an accepted decoding consumes (30_encoding.md R70). -/

namespace Sys2Proof

/-- Bytes begin with a word's bytes exactly when their first two, put together, are that word. -/
theorem cons_cons_eq_wordBytes_append (hi lo : Byte) (tail bytes : List Byte) (w : Word) :
    hi :: lo :: tail = wordBytes w ++ bytes ↔ hi ++ lo = w ∧ tail = bytes := by
  constructor
  · intro h
    simp only [wordBytes, List.cons_append, List.nil_append, List.cons.injEq] at h
    obtain ⟨rfl, rfl, htail⟩ := h
    exact ⟨append_wordBytes w, htail⟩
  · rintro ⟨rfl, rfl⟩
    rw [wordBytes_append]
    rfl

/-- Settles O3: of the two forms an accepted decoding can have, the first word tells which. -/
theorem lengthToldByFirstWord : Obligations.LengthToldByFirstWord := by
  intro hi lo tail rest i h
  obtain ⟨a, b, hbytes, -⟩ | ⟨w, hw, hbytes, -⟩ := decode_ok h
  · obtain ⟨hword, htail⟩ := (cons_cons_eq_wordBytes_append ..).mp hbytes
    exact ⟨fun _ => ⟨a, b, htail⟩, fun hne => absurd hword hne⟩
  · obtain ⟨rfl, htail⟩ := (cons_cons_eq_wordBytes_append ..).mp hbytes
    exact ⟨fun hlong => absurd hlong hw, fun _ => htail⟩

end Sys2Proof

/-! Writes of a general register, alone or with a flag (10_state.md R22, R23; 40_alu.md R101, R107). -/

namespace Sys2Proof

open Sys2Proof.Machine Sys2Proof.Claims

/-- New registers leave every other piece of state as it was. -/
theorem onlyChanges_V (s : State) (v : Vector Byte 16) : OnlyChanges [.V] s { s with V := v } := by
  intro q hq
  cases q
  case V => exact absurd (List.mem_singleton_self _) hq
  case planes => exact fun _ _ _ => rfl
  case memory => exact fun _ => rfl
  all_goals rfl

theorem writesOnly_of_exec {i : Instr} {s : State} {x : Reg} {b : Byte} (h : exec i s = .next (s.writeV x b)) :
    WritesOnly i s x b :=
  ⟨_, h, s.readV_writeV_same x b, fun _ hr => s.readV_writeV_ne (List.ne_of_not_mem_cons hr) b, onlyChanges_V s _⟩

/-! ### A result and then a flag -/

theorem toNat_flagByte (c : Bool) : (flagByte c).toNat = c.toNat := by
  cases c <;> rfl

/-- The flag is the last write, so `VF` holds it for every destination (R23). -/
theorem readV_regF_writeResultAndFlag (s : State) (x : Reg) (result : Byte) (flag : Bool) :
    (s.writeResultAndFlag x result flag).readV regF = flagByte flag :=
  (s.writeV x result).readV_writeV_same regF _

theorem readV_writeResultAndFlag_of_ne (s : State) {x q : Reg} (result : Byte) (flag : Bool) (hq : q ≠ regF) :
    (s.writeResultAndFlag x result flag).readV q = if q = x then result else s.readV q := by
  rw [State.writeResultAndFlag, State.readV_writeV_ne _ hq, State.readV_writeV]

theorem writesWithFlag_of_exec {i : Instr} {s : State} {x : Reg} {result : Byte} {flag : Bool}
    (h : exec i s = .next (s.writeResultAndFlag x result flag)) :
    WritesWithFlag i s x result.toNat flag.toNat := by
  refine ⟨_, h, fun hx => ?_, ?_, fun r hr => ?_, onlyChanges_V s _⟩
  · rw [readV_writeResultAndFlag_of_ne s result flag hx, if_pos rfl]
  · rw [readV_regF_writeResultAndFlag, toNat_flagByte]
  · obtain ⟨hrx, hrF⟩ : r ≠ x ∧ r ≠ regF := by simpa using hr
    rw [readV_writeResultAndFlag_of_ne s result flag hrF, if_neg hrx]

/-- The carry as R107 says it. -/
theorem toNat_carryOut (a b : Byte) : (carryOut a b).toNat = if a.toNat + b.toNat > 255 then 1 else 0 := by
  by_cases h : 255 < a.toNat + b.toNat <;> simp [carryOut, h]

/-! ### The instructions -/

theorem exec_ldVxNN (x : Reg) (nn : Byte) (s : State) : exec (.ldVxNN x nn) s = .next (s.writeV x nn) := rfl

theorem exec_addVxVy (x y : Reg) (s : State) :
    exec (.addVxVy x y) s =
      .next (s.writeResultAndFlag x (s.readV x + s.readV y) (carryOut (s.readV x) (s.readV y))) := rfl

/-- Settles O16: the instruction is one register write. -/
theorem loadImmediateWritesRegister : Obligations.LoadImmediateWritesRegister :=
  fun x nn s => writesOnly_of_exec (exec_ldVxNN x nn s)

/-- Settles O20: the instruction writes the sum and then the carry, both of the old operands. -/
theorem addSetsCarryLast : Obligations.AddSetsCarryLast := by
  intro x y s
  have h := writesWithFlag_of_exec (exec_addVxVy x y s)
  rwa [BitVec.toNat_add, toNat_carryOut] at h

end Sys2Proof

/-! The index register and memory: what may change, and the digits that are stored (41_memory_ops.md R121, R125). -/

namespace Sys2Proof

open Sys2Proof.Machine Sys2Proof.Claims

/-! ### Frames of the updates -/

theorem Claims.Kept.trans {s t u : State} {q : Piece} (h : Kept s t q) (h' : Kept t u q) : Kept s u q := by
  cases q
  case V => exact fun r => (h' r).trans (h r)
  case planes => exact fun p y x => (h' p y x).trans (h p y x)
  case memory => exact fun a => (h' a).trans (h a)
  all_goals exact Eq.trans h' h

theorem Claims.OnlyChanges.trans {s t u : State} {named : List Piece} (h : OnlyChanges named s t)
    (h' : OnlyChanges named t u) : OnlyChanges named s u :=
  fun q hq => (h q hq).trans (h' q hq)

theorem onlyChanges_setI {named : List Piece} (h : .I ∈ named) (s : State) (a : Addr) :
    OnlyChanges named s (s.setI a) := by
  intro q hq
  cases q
  case I => exact absurd h hq
  all_goals simp [Kept, State.pixel]

theorem onlyChanges_setPc {named : List Piece} (h : .pc ∈ named) (s : State) (a : Addr) :
    OnlyChanges named s (s.setPc a) := by
  intro q hq
  cases q
  case pc => exact absurd h hq
  all_goals simp [Kept, State.pixel]

theorem onlyChanges_writeByte {named : List Piece} (h : .memory ∈ named) (s : State) (a : Addr) (b : Byte) :
    OnlyChanges named s (s.writeByte a b) := by
  intro q hq
  cases q
  case memory => exact absurd h hq
  all_goals simp [Kept, State.pixel]

/-! ### The two-word load of `I` -/

theorem step_of_decode {s : State} {i : Instr} {rest : List Byte} (hrun : s.halted = false)
    (h : decode s.fetchBytes = .ok (i, rest)) : step s = exec i s.advance := by
  simp [step, hrun, h]

theorem decode_longWord (hi lo : Byte) (rest : List Byte) :
    decode (0xF0 :: 0x00 :: hi :: lo :: rest) = .ok (.ldILong (hi ++ lo), rest) := rfl

theorem exec_ldILong (nnnn : Word) (s : State) :
    exec (.ldILong nnnn) s = .next ((s.setI nnnn).setPc (s.pc + 2)) := rfl

theorem ldILong_completes (nnnn : Word) (s : State) : Completes (.ldILong nnnn) s fun t =>
    t.I = nnnn ∧ t.pc = s.pc + 2 ∧ OnlyChanges [.I, .pc] s t :=
  ⟨_, exec_ldILong nnnn s, rfl, rfl,
    (onlyChanges_setI (by decide) s nnnn).trans (onlyChanges_setPc (by decide) _ _)⟩

/-- Settles O25: the cycle decodes the two-word form, and the fetch and the instruction move `pc` by 2 each. -/
theorem longLoadIndexTakesSecondWord : Obligations.LongLoadIndexTakesSecondWord := by
  refine ⟨ldILong_completes, fun s hstop hfault hhi hlo => ?_⟩
  have hdecode : decode s.fetchBytes = .ok (.ldILong (s.readByte (s.pc + 2) ++ s.readByte (s.pc + 3)), []) := by
    rw [State.fetchBytes, hhi, hlo, decode_longWord]
  have hstep := step_of_decode (s.halted_eq_false_iff.mpr ⟨hstop, hfault⟩) hdecode
  obtain ⟨t, hexec, hI, hpc, hkept⟩ := ldILong_completes (s.readByte (s.pc + 2) ++ s.readByte (s.pc + 3)) s.advance
  have hpc4 : s.advance.pc + 2 = s.pc + 4 := BitVec.add_assoc s.pc 2 2
  exact ⟨t, hstep.trans hexec, hI, hpc.trans hpc4, (onlyChanges_setPc (by decide) s _).trans hkept⟩

/-! ### The decimal digits -/

theorem toNat_bcdDigit (v : Byte) (unit : Nat) : (bcdDigit v unit).toNat = v.toNat / unit % 10 := by
  rw [bcdDigit, BitVec.toNat_ofNat]
  omega

/-- A byte has at most three digits. -/
theorem toNat_bcdDigit_hundreds (v : Byte) : (bcdDigit v 100).toNat = v.toNat / 100 := by
  rw [toNat_bcdDigit]
  omega

theorem toNat_bcdDigit_ones (v : Byte) : (bcdDigit v 1).toNat = v.toNat % 10 := by
  rw [toNat_bcdDigit, Nat.div_one]

/-- An address, masked or not, is no masked address a little above it. -/
theorem ne_mask12_add (a : Addr) {k : Nat} (hpos : 0 < k) (hk : k < 4096) : a ≠ mask12 (a + BitVec.ofNat 16 k) := by
  intro h
  have h' := congrArg BitVec.toNat h
  rw [toNat_mask12, BitVec.toNat_add, BitVec.toNat_ofNat] at h'
  omega

theorem toNat_mask12_add (a : Addr) (k : Nat) :
    (mask12 (a + BitVec.ofNat 16 k)).toNat = (a.toNat + k) % 4096 := by
  rw [toNat_mask12, BitVec.toNat_add, BitVec.toNat_ofNat]
  omega

theorem exec_ldBVx (x : Reg) (s : State) :
    exec (.ldBVx x) s = .next (((s.writeByte s.I (bcdDigit (s.readV x) 100)).writeByte
      (mask12 (s.I + 1)) (bcdDigit (s.readV x) 10)).writeByte (mask12 (s.I + 2)) (bcdDigit (s.readV x) 1)) := rfl

/-- Settles O28: the three addresses differ from each other, so no digit overwrites another. -/
theorem bcdStoresThreeDigits : Obligations.BcdStoresThreeDigits := by
  intro x s
  have h01 : s.I ≠ mask12 (s.I + 1) := ne_mask12_add s.I (k := 1) (by decide) (by decide)
  have h02 : s.I ≠ mask12 (s.I + 2) := ne_mask12_add s.I (k := 2) (by decide) (by decide)
  have h12 : mask12 (s.I + 1) ≠ mask12 (s.I + 2) := fun h =>
    absurd (mask12_add_inj s.I 1 2 (by decide) (by decide) h) (by decide)
  refine ⟨_, exec_ldBVx x s, ?_, ?_, ?_, toNat_mask12_add s.I 1, toNat_mask12_add s.I 2, fun a ha => ?_, ?_⟩
  · simp only [State.readByte_writeByte, if_neg h01, if_neg h02, if_pos, toNat_bcdDigit_hundreds]
  · simp only [State.readByte_writeByte, if_neg h12, if_pos, toNat_bcdDigit]
  · simp only [State.readByte_writeByte, if_pos, toNat_bcdDigit_ones]
  · obtain ⟨ha0, ha1, ha2⟩ : a ≠ s.I ∧ a ≠ mask12 (s.I + 1) ∧ a ≠ mask12 (s.I + 2) := by simpa using ha
    simp only [State.readByte_writeByte, if_neg ha0, if_neg ha1, if_neg ha2]
  · have hmem : Piece.memory ∈ [Piece.memory] := List.mem_singleton_self _
    exact ((onlyChanges_writeByte hmem s _ _).trans (onlyChanges_writeByte hmem _ _ _)).trans
      (onlyChanges_writeByte hmem _ _ _)

end Sys2Proof

/-! Stopping the core (44_timer_key_system.md R185). -/

namespace Sys2Proof

open Sys2Proof.Machine Sys2Proof.Claims

theorem onlyChanges_stop {named : List Piece} (h : .stopped ∈ named) (s : State) : OnlyChanges named s s.stop := by
  intro q hq
  cases q
  case stopped => exact absurd h hq
  all_goals simp [Kept, State.pixel]

theorem halted_of_stopped {s : State} (h : s.stopped = true) : s.halted = true := by
  simp [State.halted, h]

theorem step_of_halted {s : State} (h : s.halted = true) : step s = .next s :=
  if_pos h

theorem exec_exit (s : State) : exec .exit s = .next (s.stop.setPc (s.pc - 2)) := rfl

/-- Settles O52: the state it leaves is a halted one, and a cycle of a halted core changes nothing. -/
theorem exitStopsForGood : Obligations.ExitStopsForGood := by
  intro s
  have hstopped : (s.stop.setPc (s.pc - 2)).stopped = true := s.stop_stopped
  have hframe : OnlyChanges [.stopped, .pc] s (s.stop.setPc (s.pc - 2)) :=
    (onlyChanges_stop (by decide) s).trans (onlyChanges_setPc (by decide) _ _)
  exact ⟨_, exec_exit s, hstopped, rfl, hframe, step_of_halted (halted_of_stopped hstopped)⟩

end Sys2Proof

/-! The decoder and the encoder are inverse to each other (30_encoding.md R71, R75 to R79). -/

namespace Sys2Proof

open Sys2Proof.Machine Sys2Proof.Claims

/-! ### The decoder by family -/

theorem decodeWord_of_family0 {w : Word} (h : w.family = 0x0#4) : decodeWord w = decodeFamily0 w := by
  simp [decodeWord, h]

theorem decodeWord_of_family5 {w : Word} (h : w.family = 0x5#4) : decodeWord w = decodeFamily5 w := by
  simp [decodeWord, h]

theorem decodeWord_of_family8 {w : Word} (h : w.family = 0x8#4) : decodeWord w = decodeFamily8 w := by
  simp [decodeWord, h]

theorem decodeWord_of_familyE {w : Word} (h : w.family = 0xE#4) : decodeWord w = decodeFamilyE w := by
  simp [decodeWord, h]

theorem decodeWord_of_familyF {w : Word} (h : w.family = 0xF#4) : decodeWord w = decodeFamilyF w := by
  simp [decodeWord, h]

theorem decodeWord_longWord : decodeWord longWord = none := rfl

/-- The first word of the two-word form is no one-word instruction, so `decode_wordBytes` needs no side condition. -/
theorem encodes_of_decodeWord {w : Word} {i : Instr} (h : decodeWord w = some i) : Encodes w i :=
  decode_wordBytes (fun hw => by simp [hw, decodeWord_longWord] at h) h

/-! ### From an instruction to its word and back -/

theorem toNat_ofNat_nibble {n : Nat} (h : n < 16) : (BitVec.ofNat 4 n).toNat = n := by
  rw [BitVec.toNat_ofNat]
  omega

/-- The upper twelve bits, which select `00CN` and `00DN`. -/
theorem toNat_extractLsb'_wordXYN (f x y n : Nibble) :
    ((wordXYN f x y n).extractLsb' 4 12).toNat = f.toNat * 256 + x.toNat * 16 + y.toNat := by
  rw [BitVec.extractLsb'_toNat, toNat_wordXYN, Nat.shiftRight_eq_div_pow]
  omega

theorem decodeFamily0_scd {w : Word} (h : w.extractLsb' 4 12 = 0x00C#12) :
    decodeFamily0 w = some (.scd w.n.toNat) := by
  simp [decodeFamily0, h]

theorem decodeFamily0_scu {w : Word} (h : w.extractLsb' 4 12 = 0x00D#12) :
    decodeFamily0 w = some (.scu w.n.toNat) := by
  simp [decodeFamily0, h]

theorem decodeWord_scd (n : Nibble) : decodeWord (wordXYN 0x0 0x0 0xC n) = some (.scd n.toNat) := by
  have hsel : (wordXYN 0x0 0x0 0xC n).extractLsb' 4 12 = 0x00C#12 :=
    BitVec.eq_of_toNat_eq (toNat_extractLsb'_wordXYN ..)
  have h := (decodeWord_of_family0 (family_wordXYN ..)).trans (decodeFamily0_scd hsel)
  rwa [n_wordXYN] at h

theorem decodeWord_scu (n : Nibble) : decodeWord (wordXYN 0x0 0x0 0xD n) = some (.scu n.toNat) := by
  have hsel : (wordXYN 0x0 0x0 0xD n).extractLsb' 4 12 = 0x00D#12 :=
    BitVec.eq_of_toNat_eq (toNat_extractLsb'_wordXYN ..)
  have h := (decodeWord_of_family0 (family_wordXYN ..)).trans (decodeFamily0_scu hsel)
  rwa [n_wordXYN] at h

/-- A well-formed instruction other than the two-word form has one word, which decodes to it. -/
theorem decodeWord_of_encode {i : Instr} (hwf : i.wellFormed = true) :
    (∃ nnnn, i = .ldILong nnnn) ∨ ∃ w, encode i = [w] ∧ decodeWord w = some i := by
  cases i
  case ldILong nnnn => exact .inl ⟨nnnn, rfl⟩
  all_goals refine .inr ⟨_, rfl, ?_⟩
  case scd n => rw [decodeWord_scd, toNat_ofNat_nibble (of_decide_eq_true hwf)]
  case scu n => rw [decodeWord_scu, toNat_ofNat_nibble (of_decide_eq_true hwf)]
  case drw x y n => simp [decodeWord, toNat_ofNat_nibble (of_decide_eq_true hwf)]
  case cls | ret | scr | scl | exit | low | high | audio => rfl
  all_goals simp [decodeWord, decodeFamily5, decodeFamily8, decodeFamilyE, decodeFamilyF]

/-- Settles O4: the two-word form by its own bytes, every other instruction by its one word. -/
theorem decodeAfterEncode : Obligations.DecodeAfterEncode := by
  intro i rest hwf
  obtain ⟨nnnn, rfl⟩ | ⟨w, hw, hdec⟩ := decodeWord_of_encode hwf
  · have h := decode_longWord (nnnn.extractLsb' 8 8) (nnnn.extractLsb' 0 8) rest
    rwa [append_wordBytes] at h
  · have hbytes : encodeBytes i = wordBytes w := by simp [encodeBytes, hw]
    rw [hbytes]
    exact encodes_of_decodeWord hdec rest

/-! ### From a word to its instruction and back -/

/-- `w` is the one word of the well-formed instruction `i`. -/
def IsWordOf (w : Word) (i : Instr) : Prop := i.wellFormed = true ∧ encode i = [w]

theorem isWordOf_of_XYN {w : Word} {i : Instr} {f n : Nibble} (hwf : i.wellFormed = true)
    (he : encode i = [wordXYN f w.x w.y n]) (hf : w.family = f) (hn : w.n = n) : IsWordOf w i :=
  ⟨hwf, by rw [he, ← hf, ← hn, wordXYN_fields]⟩

theorem isWordOf_of_XNN {w : Word} {i : Instr} {f : Nibble} {nn : Byte} (hwf : i.wellFormed = true)
    (he : encode i = [wordXNN f w.x nn]) (hf : w.family = f) (hnn : w.nn = nn) : IsWordOf w i :=
  ⟨hwf, by rw [he, ← hf, ← hnn, wordXNN_fields]⟩

theorem isWordOf_of_NNN {w : Word} {i : Instr} {f : Nibble} (hwf : i.wellFormed = true)
    (he : encode i = [wordNNN f w.nnn]) (hf : w.family = f) : IsWordOf w i :=
  ⟨hwf, by rw [he, ← hf, wordNNN_fields]⟩

/-- A word with the upper twelve bits `00Y` is rebuilt from `Y` and its field `N`. -/
theorem wordXYN_of_extractLsb' {w : Word} {y : Nibble} (h : (w.extractLsb' 4 12).toNat = y.toNat) :
    wordXYN 0x0 0x0 y (BitVec.ofNat 4 w.n.toNat) = w := by
  rw [BitVec.extractLsb'_toNat, Nat.shiftRight_eq_div_pow] at h
  have h0 : (0x0 : Nibble).toNat = 0 := rfl
  apply BitVec.eq_of_toNat_eq
  rw [toNat_wordXYN, h0, BitVec.toNat_ofNat, Word.n, BitVec.extractLsb'_toNat, Nat.shiftRight_eq_div_pow]
  have := w.isLt
  omega

theorem n_toNat_lt (w : Word) : decide (w.n.toNat < 16) = true := decide_eq_true w.n.isLt

theorem isWordOf_of_decodeFamily0 {w : Word} {i : Instr} (h : decodeFamily0 w = some i) : IsWordOf w i := by
  unfold decodeFamily0 at h
  split at h
  · next hsel =>
    cases h
    exact ⟨n_toNat_lt w, congrArg (fun v => [v]) (wordXYN_of_extractLsb' (y := 0xC) (by rw [hsel]; rfl))⟩
  · next hsel =>
    cases h
    exact ⟨n_toNat_lt w, congrArg (fun v => [v]) (wordXYN_of_extractLsb' (y := 0xD) (by rw [hsel]; rfl))⟩
  · split at h <;> cases h <;> exact ⟨rfl, rfl⟩

theorem isWordOf_of_decodeFamily5 {w : Word} {i : Instr} (hf : w.family = 0x5#4) (h : decodeFamily5 w = some i) :
    IsWordOf w i := by
  unfold decodeFamily5 at h
  split at h <;> cases h <;> exact isWordOf_of_XYN rfl rfl hf ‹_›

theorem isWordOf_of_decodeFamily8 {w : Word} {i : Instr} (hf : w.family = 0x8#4) (h : decodeFamily8 w = some i) :
    IsWordOf w i := by
  unfold decodeFamily8 at h
  split at h <;> cases h <;> exact isWordOf_of_XYN rfl rfl hf ‹_›

theorem isWordOf_of_decodeFamilyE {w : Word} {i : Instr} (hf : w.family = 0xE#4) (h : decodeFamilyE w = some i) :
    IsWordOf w i := by
  unfold decodeFamilyE at h
  split at h <;> cases h <;> exact isWordOf_of_XNN rfl rfl hf ‹_›

theorem isWordOf_of_decodeFamilyF {w : Word} {i : Instr} (hf : w.family = 0xF#4) (h : decodeFamilyF w = some i) :
    IsWordOf w i := by
  unfold decodeFamilyF at h
  split at h
  case h_2 hnn =>
    split at h <;> cases h
    next hx => exact isWordOf_of_XNN rfl (by rw [hx]; rfl) hf hnn
  all_goals cases h <;> exact isWordOf_of_XNN rfl rfl hf ‹_›

/-- The families that reject some words, and those that have a row for every word, by the row's format. -/
theorem family_cases (f : Nibble) :
    (f = 0x0#4 ∨ f = 0x5#4 ∨ f = 0x8#4 ∨ f = 0xE#4 ∨ f = 0xF#4) ∨ (f = 0x1#4 ∨ f = 0x2#4 ∨ f = 0xA#4 ∨ f = 0xB#4) ∨
    (f = 0x3#4 ∨ f = 0x4#4 ∨ f = 0x6#4 ∨ f = 0x7#4 ∨ f = 0xC#4) ∨ f = 0x9#4 ∨ f = 0xD#4 := by
  revert f
  decide

theorem isWordOf_of_decodeWord {w : Word} {i : Instr} (h : decodeWord w = some i) : IsWordOf w i := by
  obtain (hf | hf | hf | hf | hf) | hNNN | hXNN | hf | hf := family_cases w.family
  · exact isWordOf_of_decodeFamily0 (decodeWord_of_family0 hf ▸ h)
  · exact isWordOf_of_decodeFamily5 hf (decodeWord_of_family5 hf ▸ h)
  · exact isWordOf_of_decodeFamily8 hf (decodeWord_of_family8 hf ▸ h)
  · exact isWordOf_of_decodeFamilyE hf (decodeWord_of_familyE hf ▸ h)
  · exact isWordOf_of_decodeFamilyF hf (decodeWord_of_familyF hf ▸ h)
  · obtain hf | hf | hf | hf := hNNN <;> simp only [decodeWord, hf] at h <;> cases h <;>
      exact isWordOf_of_NNN rfl rfl hf
  · obtain hf | hf | hf | hf | hf := hXNN <;> simp only [decodeWord, hf] at h <;> cases h <;>
      exact isWordOf_of_XNN rfl rfl hf rfl
  · simp only [decodeWord, hf] at h
    cases h
    exact isWordOf_of_XYN rfl rfl hf rfl
  · simp only [decodeWord, hf] at h
    cases h
    exact isWordOf_of_XYN (n_toNat_lt w) (by simp [encode]) hf rfl

/-- Settles O5: an accepted word is the one word of the instruction that the decoder gives. -/
theorem encodeAfterDecode : Obligations.EncodeAfterDecode := by
  intro bytes rest i h
  obtain ⟨hi, lo, rfl, rfl⟩ | ⟨w, -, rfl, hdec⟩ := decode_ok h
  · refine ⟨rfl, ?_⟩
    simp [encodeBytes, encode]
  · obtain ⟨hwf, he⟩ := isWordOf_of_decodeWord hdec
    refine ⟨hwf, ?_⟩
    simp [encodeBytes, he]

end Sys2Proof

/-! The opcode tables and the words that are no instruction (30_encoding.md R75 to R80). -/

namespace Sys2Proof

open Sys2Proof.Machine Sys2Proof.Claims

theorem encodes_of_encode {w : Word} {i : Instr} (hwf : i.wellFormed = true) (he : encode i = [w]) : Encodes w i := by
  intro rest
  have h := decodeAfterEncode i rest hwf
  rwa [encodeBytes, he, List.flatMap_singleton] at h

/-- Settles O1: ten closed decodings, evaluated. -/
theorem sampleWordsDecode : Obligations.SampleWordsDecode := by
  unfold Obligations.SampleWordsDecode
  decide

/-! ### The fields as numbers -/

theorem toNat_family (w : Word) : w.family.toNat = w.toNat / 4096 := by
  have := w.isLt
  rw [Word.family, BitVec.extractLsb'_toNat, Nat.shiftRight_eq_div_pow]
  omega

theorem toNat_n (w : Word) : w.n.toNat = w.toNat % 16 := by
  rw [Word.n, BitVec.extractLsb'_toNat, Nat.shiftRight_eq_div_pow]
  omega

theorem toNat_nn (w : Word) : w.nn.toNat = w.toNat % 256 := by
  rw [Word.nn, BitVec.extractLsb'_toNat, Nat.shiftRight_eq_div_pow]
  omega

theorem toNat_x (w : Word) : w.x.toNat = w.toNat / 256 % 16 := by
  rw [Word.x, BitVec.extractLsb'_toNat, Nat.shiftRight_eq_div_pow]

/-! ### What each family rejects: the last arm of its match, which is left when no listed value is met -/

theorem decodeFamily0_eq_none_iff (w : Word) : decodeFamily0 w = none ↔
    w.toNat / 16 % 4096 ∉ [0x00C, 0x00D] ∧ w.toNat ∉ [0x00E0, 0x00EE, 0x00FB, 0x00FC, 0x00FD, 0x00FE, 0x00FF] := by
  have hsel : (w.extractLsb' 4 12).toNat = w.toNat / 16 % 4096 := by
    rw [BitVec.extractLsb'_toNat, Nat.shiftRight_eq_div_pow]
  rw [← hsel]
  unfold decodeFamily0
  split
  · simp [*]
  · simp [*]
  · split <;> simp_all [← BitVec.toNat_inj]

theorem decodeFamily5_eq_none_iff (w : Word) : decodeFamily5 w = none ↔ w.n.toNat ∉ [0x0, 0x2, 0x3] := by
  unfold decodeFamily5
  split <;> simp_all [← BitVec.toNat_inj]

theorem decodeFamily8_eq_none_iff (w : Word) :
    decodeFamily8 w = none ↔ w.n.toNat ∉ [0x0, 0x1, 0x2, 0x3, 0x4, 0x5, 0x6, 0x7, 0xE] := by
  unfold decodeFamily8
  split <;> simp_all [← BitVec.toNat_inj]

theorem decodeFamilyE_eq_none_iff (w : Word) : decodeFamilyE w = none ↔ w.nn.toNat ∉ [0x9E, 0xA1] := by
  unfold decodeFamilyE
  split <;> simp_all [← BitVec.toNat_inj]

theorem decodeFamilyF_eq_none_iff (w : Word) : decodeFamilyF w = none ↔
    w.nn.toNat ∉ [0x01, 0x07, 0x0A, 0x15, 0x18, 0x1E, 0x29, 0x30, 0x33, 0x55, 0x65, 0x75, 0x85] ∧
      ¬ (w.nn.toNat = 0x02 ∧ w.x.toNat = 0) := by
  unfold decodeFamilyF
  split <;> simp_all [← BitVec.toNat_inj]

theorem not_unrecognized_longWord : ¬ Unrecognized longWord := by
  unfold Unrecognized
  decide

/-- R80 with its families read off the top nibble. -/
theorem unrecognized_iff (w : Word) : Unrecognized w ↔
    (w.family.toNat = 0x0 ∧ ¬ (0x00C0 ≤ w.toNat ∧ w.toNat ≤ 0x00DF) ∧
      w.toNat ∉ [0x00E0, 0x00EE, 0x00FB, 0x00FC, 0x00FD, 0x00FE, 0x00FF]) ∨
    (w.family.toNat = 0x5 ∧ w.n.toNat ∉ [0x0, 0x2, 0x3]) ∨
    (w.family.toNat = 0x8 ∧ w.n.toNat ∈ [0x8, 0x9, 0xA, 0xB, 0xC, 0xD, 0xF]) ∨
    (w.family.toNat = 0xE ∧ w.nn.toNat ∉ [0x9E, 0xA1]) ∨
    (w.family.toNat = 0xF ∧
      w.nn.toNat ∉ [0x01, 0x07, 0x0A, 0x15, 0x18, 0x1E, 0x29, 0x30, 0x33, 0x55, 0x65, 0x75, 0x85] ∧
      w.toNat ≠ 0xF000 ∧ w.toNat ≠ 0xF002) := by
  have h0 : w.toNat < 0x1000 ↔ w.toNat / 4096 = 0x0 := by omega
  rw [toNat_family, toNat_n, toNat_nn, Unrecognized, h0]

/-- Family by family, the words without an instruction are those of R80 and the first word of the two-word form. -/
theorem decodeWord_eq_none_iff (w : Word) : decodeWord w = none ↔ w = longWord ∨ Unrecognized w := by
  have hlong : w = longWord ↔ w.toNat = 0xF000 := BitVec.toNat_inj.symm
  have hfam := toNat_family w
  rw [hlong, unrecognized_iff]
  obtain (hf | hf | hf | hf | hf) | hNNN | hXNN | hf | hf := family_cases w.family
  · rw [decodeWord_of_family0 hf, decodeFamily0_eq_none_iff]
    simp [hf] at hfam ⊢
    omega
  · have hne : w.toNat ≠ 0xF000 := fun h => by simp [hf, h] at hfam
    simp [decodeWord_of_family5 hf, decodeFamily5_eq_none_iff, hf, hne]
  · have hne : w.toNat ≠ 0xF000 := fun h => by simp [hf, h] at hfam
    rw [decodeWord_of_family8 hf, decodeFamily8_eq_none_iff]
    simp [hf, hne]
    have := w.n.isLt
    omega
  · have hne : w.toNat ≠ 0xF000 := fun h => by simp [hf, h] at hfam
    simp [decodeWord_of_familyE hf, decodeFamilyE_eq_none_iff, hf, hne]
  · have haudio : w.nn.toNat = 0x02 ∧ w.x.toNat = 0 ↔ w.toNat = 0xF002 := by
      rw [hf] at hfam
      rw [toNat_nn, toNat_x]
      simp at hfam
      omega
    rw [decodeWord_of_familyF hf, decodeFamilyF_eq_none_iff, haudio]
    by_cases hw : w.toNat = 0xF000
    · simp [toNat_nn, hw]
    · simp [hf, hw]
  · obtain hf | hf | hf | hf := hNNN <;> simp [decodeWord, hf] at hfam ⊢ <;> omega
  · obtain hf | hf | hf | hf | hf := hXNN <;> simp [decodeWord, hf] at hfam ⊢ <;> omega
  · simp [decodeWord, hf] at hfam ⊢
    omega
  · simp [decodeWord, hf] at hfam ⊢
    omega

/-- A word is rejected as unrecognized exactly if it is in the set of R80, whatever follows it. -/
theorem decode_eq_unrecognized_iff (w : Word) (rest : List Byte) :
    decode (wordBytes w ++ rest) = .error (.unrecognized w) ↔ Unrecognized w := by
  by_cases hw : w = longWord
  · subst hw
    refine iff_of_false (fun h => ?_) not_unrecognized_longWord
    match rest with
    | [] | [_] | _ :: _ :: _ => simp [wordBytes, decode, longWord] at h
  · cases hd : decodeWord w with
    | some i =>
      have hnone : ¬ decodeWord w = none := by simp [hd]
      rw [decodeWord_eq_none_iff, not_or] at hnone
      simp [encodes_of_decodeWord hd rest, hnone]
    | none =>
      have hun : Unrecognized w := ((decodeWord_eq_none_iff w).mp hd).resolve_left hw
      have ha : w.extractLsb' 8 8 ++ w.extractLsb' 0 8 = w := append_wordBytes w
      simp only [wordBytes, List.cons_append, List.nil_append, decode, hun, iff_true]
      erw [ha]
      simp [hw, hd]

theorem encode_scd (n : Nibble) : encode (.scd n.toNat) = [0x00C#12 ++ n] := by
  have h : wordXYN 0x0 0x0 0xC n = 0x00C#12 ++ n := by
    apply BitVec.eq_of_toNat_eq
    rw [toNat_wordXYN, toNat_append]
    rfl
  rw [encode, BitVec.ofNat_toNat, BitVec.setWidth_eq, h]

theorem encode_scu (n : Nibble) : encode (.scu n.toNat) = [0x00D#12 ++ n] := by
  have h : wordXYN 0x0 0x0 0xD n = 0x00D#12 ++ n := by
    apply BitVec.eq_of_toNat_eq
    rw [toNat_wordXYN, toNat_append]
    rfl
  rw [encode, BitVec.ofNat_toNat, BitVec.setWidth_eq, h]

theorem encode_drw (x y n : Nibble) : encode (.drw x y n.toNat) = [0xD#4 ++ x ++ y ++ n] := by
  rw [encode, BitVec.ofNat_toNat, BitVec.setWidth_eq]
  rfl

/-- Settles O2: every row is the encoding of its instruction, and `decode_eq_unrecognized_iff` is the last clause. -/
theorem opcodeTablesDecode : Obligations.OpcodeTablesDecode := by
  have counts (n : Nibble) : decide (n.toNat < 16) = true := decide_eq_true n.isLt
  refine ⟨fun n => ⟨encodes_of_encode (counts n) (encode_scd n), encodes_of_encode (counts n) (encode_scu n)⟩,
    ?_, ?_, ?_, ?_, ?_, ?_, ?_, fun nnn => ⟨?_, ?_, ?_, ?_⟩, fun x nn => ⟨?_, ?_, ?_, ?_, ?_⟩,
    fun x y => ⟨?_, ?_, ?_, ?_, ?_, ?_, ?_, ?_, ?_, ?_, ?_, ?_⟩,
    fun x y n => ⟨?_, encodes_of_encode (counts n) (encode_drw x y n)⟩,
    fun x => ⟨?_, ?_, ?_, ?_, ?_, ?_, ?_, ?_, ?_, ?_, ?_, ?_, ?_, ?_, ?_⟩, ?_,
    fun nnnn rest => decodeAfterEncode (.ldILong nnnn) rest rfl, decode_eq_unrecognized_iff⟩
  all_goals exact encodes_of_encode rfl rfl

end Sys2Proof

/-! What every instruction may change, as data (10_state.md sections 1 to 7): one table, from which the frame of each
instruction and the writers of each piece of state follow. -/

namespace Sys2Proof

open Sys2Proof.Machine Sys2Proof.Claims

/-! ### Frames as data -/

/-- A piece of state is the same data in both states. For memory and the planes this says more than `Kept`. -/
def SameData (s t : State) : Piece → Prop
  | .V => t.V = s.V
  | .I => t.I = s.I
  | .pc => t.pc = s.pc
  | .sp => t.sp = s.sp
  | .stack => t.stack = s.stack
  | .delayTimer => t.delayTimer = s.delayTimer
  | .soundTimer => t.soundTimer = s.soundTimer
  | .hiRes => t.hiRes = s.hiRes
  | .bitPlaneSelect => t.bitPlaneSelect = s.bitPlaneSelect
  | .stopped => t.stopped = s.stopped
  | .waitingForKey => t.waitingForKey = s.waitingForKey
  | .waitRegister => t.waitRegister = s.waitRegister
  | .fault => t.fault = s.fault
  | .userFlags => t.userFlags = s.userFlags
  | .audioBuffer => t.audioBuffer = s.audioBuffer
  | .planes => t.planes = s.planes
  | .keys => t.keys = s.keys
  | .memory => t.mem = s.mem
  | .redraw => t.redraw = s.redraw
  | .quirks => t.quirks = s.quirks
  | .draws => t.draws = s.draws
  | .diag => t.diag = s.diag

/-- Every piece of state but the named ones is the same data. -/
def SameBut (named : List Piece) (s t : State) : Prop := ∀ q, q ∉ named → SameData s t q

theorem SameData.kept {s t : State} {q : Piece} (h : SameData s t q) : Kept s t q := by
  cases q
  case V => exact fun r => congrArg (fun v : Vector Byte 16 => v[r.toNat]) h
  case planes => exact fun p y x => congrArg (fun ps : Vector Plane 2 => ps[p][y].getLsbD x.val) h
  case memory => exact fun a => congrArg (fun m : Memory => m.read a.toNat) h
  all_goals exact h

theorem SameBut.onlyChanges {named : List Piece} {s t : State} (h : SameBut named s t) : OnlyChanges named s t :=
  fun q hq => (h q hq).kept

theorem SameBut.mono {named more : List Piece} {s t : State} (h : SameBut named s t) (hsub : named ⊆ more) :
    SameBut more s t :=
  fun q hq => h q fun hmem => hq (hsub hmem)

/-- A frame, piece by piece. -/
theorem sameBut_iff {named : List Piece} {s t : State} : SameBut named s t ↔
    (.V ∉ named → t.V = s.V) ∧ (.I ∉ named → t.I = s.I) ∧ (.pc ∉ named → t.pc = s.pc) ∧ (.sp ∉ named → t.sp = s.sp) ∧
    (.stack ∉ named → t.stack = s.stack) ∧ (.delayTimer ∉ named → t.delayTimer = s.delayTimer) ∧
    (.soundTimer ∉ named → t.soundTimer = s.soundTimer) ∧ (.hiRes ∉ named → t.hiRes = s.hiRes) ∧
    (.bitPlaneSelect ∉ named → t.bitPlaneSelect = s.bitPlaneSelect) ∧ (.stopped ∉ named → t.stopped = s.stopped) ∧
    (.waitingForKey ∉ named → t.waitingForKey = s.waitingForKey) ∧
    (.waitRegister ∉ named → t.waitRegister = s.waitRegister) ∧ (.fault ∉ named → t.fault = s.fault) ∧
    (.userFlags ∉ named → t.userFlags = s.userFlags) ∧ (.audioBuffer ∉ named → t.audioBuffer = s.audioBuffer) ∧
    (.planes ∉ named → t.planes = s.planes) ∧ (.keys ∉ named → t.keys = s.keys) ∧
    (.memory ∉ named → t.mem = s.mem) ∧ (.redraw ∉ named → t.redraw = s.redraw) ∧
    (.quirks ∉ named → t.quirks = s.quirks) ∧ (.draws ∉ named → t.draws = s.draws) ∧
    (.diag ∉ named → t.diag = s.diag) := by
  constructor
  · intro h
    exact ⟨h .V, h .I, h .pc, h .sp, h .stack, h .delayTimer, h .soundTimer, h .hiRes, h .bitPlaneSelect, h .stopped,
      h .waitingForKey, h .waitRegister, h .fault, h .userFlags, h .audioBuffer, h .planes, h .keys, h .memory,
      h .redraw, h .quirks, h .draws, h .diag⟩
  · rintro ⟨h1, h2, h3, h4, h5, h6, h7, h8, h9, h10, h11, h12, h13, h14, h15, h16, h17, h18, h19, h20, h21, h22⟩ q
    cases q
    all_goals assumption

/-! ### The table -/

/-- The pieces of state that an instruction may change, in the state after the fetch's advance of `pc`. -/
def changes : Instr → List Piece
  | .scd _ => [.planes, .redraw]
  | .scu _ => [.planes, .redraw]
  | .cls => [.planes, .redraw]
  | .ret => [.sp, .pc, .fault]
  | .scr => [.planes, .redraw]
  | .scl => [.planes, .redraw]
  | .exit => [.stopped, .pc]
  | .low => [.hiRes, .planes, .redraw]
  | .high => [.hiRes, .planes, .redraw]
  | .jp _ => [.pc]
  | .call _ => [.stack, .sp, .pc, .fault]
  | .seVxNN _ _ => [.pc]
  | .sneVxNN _ _ => [.pc]
  | .seVxVy _ _ => [.pc]
  | .save _ _ => [.memory]
  | .load _ _ => [.V]
  | .ldVxNN _ _ => [.V]
  | .addVxNN _ _ => [.V]
  | .ldVxVy _ _ => [.V]
  | .orVxVy _ _ => [.V]
  | .andVxVy _ _ => [.V]
  | .xorVxVy _ _ => [.V]
  | .addVxVy _ _ => [.V]
  | .subVxVy _ _ => [.V]
  | .shrVxVy _ _ => [.V]
  | .subnVxVy _ _ => [.V]
  | .shlVxVy _ _ => [.V]
  | .sneVxVy _ _ _ => [.pc]
  | .ldINNN _ => [.I]
  | .jpV0 _ => [.pc]
  | .rnd _ _ => [.V, .draws]
  | .drw _ _ _ => [.V, .planes, .redraw]
  | .skp _ => [.pc]
  | .sknp _ => [.pc]
  | .ldILong _ => [.I, .pc]
  | .plane _ => [.bitPlaneSelect]
  | .audio => [.audioBuffer]
  | .ldVxDT _ => [.V]
  | .ldVxK _ => [.pc, .waitingForKey, .waitRegister]
  | .ldDTVx _ => [.delayTimer]
  | .ldSTVx _ => [.soundTimer]
  | .addIVx _ => [.I]
  | .ldFVx _ => [.I]
  | .ldHFVx _ => [.I]
  | .ldBVx _ => [.memory]
  | .ldMemVx _ => [.memory, .I]
  | .ldVxMem _ => [.V, .I]
  | .ldRVx _ => [.userFlags]
  | .ldVxR _ => [.V]

/-- Every instruction completes. -/
theorem exec_completes (i : Instr) (s : State) : ∃ t, exec i s = .next t := by
  cases i <;> exact ⟨_, rfl⟩

theorem eq_of_exec {i : Instr} {s t u : State} (h : exec i s = .next t) (h' : exec i s = .next u) : t = u :=
  Host.Outcome.next.inj (h.symm.trans h')

/-! ### What the shared operations change -/

theorem sameBut_V (s : State) (v : Vector Byte 16) : SameBut [.V] s { s with V := v } := by
  simp [sameBut_iff]

theorem sameBut_mem (s : State) (m : Memory) : SameBut [.memory] s { s with mem := m } := by
  simp [sameBut_iff]

theorem sameBut_userFlags (s : State) (fs : Vector Byte 8) : SameBut [.userFlags] s { s with userFlags := fs } := by
  simp [sameBut_iff]

theorem sameBut_setI (s : State) (a : Addr) : SameBut [.I] s (s.setI a) := by
  simp [sameBut_iff]

theorem sameBut_setPc (s : State) (a : Addr) : SameBut [.pc] s (s.setPc a) := by
  simp [sameBut_iff]

theorem sameBut_mapSelected (s : State) (f : Plane → Plane) :
    SameBut [.planes, .redraw] s (s.mapSelected f).markRedraw := by
  simp [sameBut_iff, State.mapSelected]

theorem sameBut_switchResolution (s : State) (high : Bool) :
    SameBut [.hiRes, .planes, .redraw] s (s.switchResolution high) := by
  simp [sameBut_iff, State.switchResolution]

theorem sameBut_takeStackFault (s : State) (record : Addr → FaultRecord) :
    SameBut [.pc, .fault] s (s.takeStackFault record) := by
  simp [sameBut_iff, State.takeStackFault_eq]

/-- No instruction changes a piece of state that the table does not list for it. -/
theorem exec_sameBut {i : Instr} {s t : State} (h : exec i s = .next t) : SameBut (changes i) s t := by
  cases i <;> obtain rfl := Host.Outcome.next.inj h
  case scd | scu | cls | scr | scl => exact sameBut_mapSelected s _
  case low | high => exact sameBut_switchResolution s _
  case jp | seVxNN | sneVxNN | seVxVy | sneVxVy | jpV0 | skp | sknp => exact sameBut_setPc s _
  case ldINNN | addIVx | ldFVx | ldHFVx => exact sameBut_setI s _
  case ldVxNN | addVxNN | ldVxVy | orVxVy | andVxVy | xorVxVy | ldVxDT => exact sameBut_V s _
  case addVxVy | subVxVy | shrVxVy | subnVxVy | shlVxVy => exact sameBut_V s _
  case save x y => exact s.storeRegs_eq s.I (regRange x y) ▸ sameBut_mem s _
  case load x y => exact s.loadRegs_eq s.I (regRange x y) ▸ sameBut_V s _
  case ldRVx x => exact s.saveFlags_eq (flagIndices x) ▸ sameBut_userFlags s _
  case ldVxR x => exact s.loadFlags_eq (flagIndices x) ▸ sameBut_V s _
  case ldBVx => exact sameBut_mem s _
  case ldMemVx x =>
    rw [s.storeRegs_eq s.I (regsUpTo x)]
    simp [sameBut_iff, changes, State.incrementI]
  case ldVxMem x =>
    rw [s.loadRegs_eq s.I (regsUpTo x)]
    simp [sameBut_iff, changes, State.incrementI]
  case call nnn =>
    split
    · exact (sameBut_takeStackFault s _).mono (by simp [changes])
    · simp [sameBut_iff, changes]
  case ret =>
    split
    · exact (sameBut_takeStackFault s _).mono (by decide)
    · simp [sameBut_iff, changes]
  case ldVxK x =>
    split <;> simp [sameBut_iff, changes, State.rewind]
  case exit | rnd | drw | ldILong | plane | audio | ldDTVx | ldSTVx =>
    simp [sameBut_iff, changes, State.rewind]

end Sys2Proof

/-! One cycle: it completes, and it keeps the invariant (10_state.md R26; 60_exceptions.md R202, R206). -/

namespace Sys2Proof

open Sys2Proof.Machine Sys2Proof.Claims

/-! ### The cycle -/

theorem halted_iff (s : State) : s.halted = true ↔ s.stopped = true ∨ s.fault ≠ .none := by
  simp [State.halted]

theorem step_of_error {s : State} {e : DecodeError} (hrun : s.halted = false) (h : decode s.fetchBytes = .error e) :
    step s = .next (s.advance.unrecognized (s.readWord s.pc)) := by
  simp [step, hrun, h]

theorem fetchBytes_eq (s : State) :
    s.fetchBytes = wordBytes (s.readWord s.pc) ++ [s.readByte (s.pc + 2), s.readByte (s.pc + 3)] := by
  rw [State.readWord, wordBytes_append]
  rfl

theorem instrAddr_advance (s : State) : s.advance.instrAddr = s.pc := BitVec.add_sub_cancel s.pc 2

/-- Settles O6: the three clauses are the three cases of `step_cases`, an unrecognized word told by
`decode_eq_unrecognized_iff`. -/
theorem cycleRunsDecodedInstruction : Obligations.CycleRunsDecodedInstruction := by
  refine ⟨fun s hs => step_of_halted ((halted_iff s).mpr hs), fun s i rest hstop hfault hdec => ?_,
    fun s hstop hfault hun => ?_⟩
  · exact step_of_decode (s.halted_eq_false_iff.mpr ⟨hstop, hfault⟩) hdec
  · have herr : decode s.fetchBytes = .error (.unrecognized (s.readWord s.pc)) := by
      rw [fetchBytes_eq]
      exact (decode_eq_unrecognized_iff _ _).mpr hun
    rw [step_of_error (s.halted_eq_false_iff.mpr ⟨hstop, hfault⟩) herr, State.unrecognized, instrAddr_advance]
    rfl

/-- Settles O7: a halted state is its own next state, every instruction completes, and so does an unrecognized word. -/
theorem everyCycleHasNextState : Obligations.EveryCycleHasNextState := by
  intro s
  obtain ⟨-, h⟩ | ⟨-, i, -, -, h⟩ | ⟨-, -, -, h⟩ := step_cases s
  · exact ⟨s, h⟩
  · exact h ▸ exec_completes i s.advance
  · exact ⟨_, h⟩

/-! ### The invariant -/

theorem inv_of_sameBut {named : List Piece} {s t : State} (hs : s.Inv) (h : SameBut named s t)
    (hn : .memory ∉ named ∧ .sp ∉ named ∧ .fault ∉ named ∧ .pc ∉ named) : t.Inv := by
  obtain ⟨hmem, hsp, hfault, hpc⟩ := hn
  have emem : t.mem = s.mem := h .memory hmem
  have esp : t.sp = s.sp := h .sp hsp
  have efault : t.fault = s.fault := h .fault hfault
  have epc : t.pc = s.pc := h .pc hpc
  simpa only [State.Inv, emem, esp, efault, epc] using hs

/-- Every instruction keeps the canonical form of memory. -/
theorem exec_wf {i : Instr} {s t : State} (h : exec i s = .next t) (hs : s.mem.wf) : t.mem.wf := by
  by_cases hmem : .memory ∈ changes i
  · cases i <;> simp [changes] at hmem <;> obtain rfl := Host.Outcome.next.inj h
    case save x y => exact s.storeRegs_wf _ _ hs
    case ldMemVx x => exact s.storeRegs_wf _ _ hs
    case ldBVx x => exact State.writeByte_wf _ _ _ (State.writeByte_wf _ _ _ (State.writeByte_wf _ _ _ hs))
  · have emem : t.mem = s.mem := exec_sameBut h .memory hmem
    rwa [emem]

/-- A call on a full stack leaves a precise overflow record, any other a deeper stack. -/
theorem exec_call_inv {nnn : BitVec 12} {s t : State} (h : exec (.call nnn) s = .next t) (hm : s.mem.wf)
    (hsp : s.sp ≤ stackDepth) (hf : s.fault = .none) : t.Inv := by
  obtain rfl := Host.Outcome.next.inj h
  split
  · next hfull => exact ⟨hm, hsp, by simp [State.takeStackFault_eq]; omega, by simp [State.takeStackFault_eq]⟩
  · exact State.inv_of_no_fault hm (by simp; omega) hf

/-- A return on an empty stack leaves a precise underflow record, any other a shallower stack. -/
theorem exec_ret_inv {s t : State} (h : exec .ret s = .next t) (hm : s.mem.wf)
    (hsp : s.sp ≤ stackDepth) (hf : s.fault = .none) : t.Inv := by
  obtain rfl := Host.Outcome.next.inj h
  split
  · next hempty => exact ⟨hm, hsp, by simp [State.takeStackFault_eq], by simp [State.takeStackFault_eq, hempty]⟩
  · exact State.inv_of_no_fault hm (by simp; omega) hf

theorem exec_inv {i : Instr} {s t : State} (h : exec i s = .next t) (hm : s.mem.wf) (hsp : s.sp ≤ stackDepth)
    (hf : s.fault = .none) : t.Inv := by
  by_cases hstack : .sp ∈ changes i
  · cases i <;> simp [changes] at hstack
    case call nnn => exact exec_call_inv h hm hsp hf
    case ret => exact exec_ret_inv h hm hsp hf
  · have hfault : .fault ∉ changes i := by
      cases i <;> simp [changes] at hstack ⊢
    have esp : t.sp = s.sp := exec_sameBut h .sp hstack
    have efault : t.fault = s.fault := exec_sameBut h .fault hfault
    exact State.inv_of_no_fault (exec_wf h hm) (esp ▸ hsp) (efault.trans hf)

/-- Settles O8: only a call and a return can record a fault, and each records it precisely. -/
theorem cycleKeepsInvariant : Obligations.CycleKeepsInvariant := by
  intro s t hs h
  obtain ⟨-, hstep⟩ | ⟨hrun, i, -, -, hstep⟩ | ⟨hrun, -, -, hstep⟩ := step_cases s
  · exact Host.Outcome.next.inj (hstep.symm.trans h) ▸ hs
  all_goals
    obtain ⟨hmem, hsp, -, -⟩ := hs
    obtain ⟨-, hf⟩ := s.halted_eq_false_iff.mp hrun
  · exact exec_inv (hstep.symm.trans h) hmem hsp hf
  · exact Host.Outcome.next.inj (hstep.symm.trans h) ▸ State.inv_of_no_fault hmem hsp hf

/-- Settles O9: memory lists nothing, the stack is empty, no fault is recorded. -/
theorem resetHasInvariant : Obligations.ResetHasInvariant :=
  State.inv_of_no_fault State.reset_wf (Nat.zero_le _) rfl

end Sys2Proof

/-! Where a cycle leaves `pc`, and the stack fault (42_control_flow.md R152; 60_exceptions.md R202). -/

namespace Sys2Proof

open Sys2Proof.Machine Sys2Proof.Claims

/-! ### pc after a cycle -/

theorem pcAfter_of_pc_not_mem_changes {i : Instr} (h : .pc ∉ changes i) (s : State) : pcAfter s i = s.pc + 2 := by
  cases i <;> simp [changes] at h <;> rfl

/-- A skip from the word after the instruction: by 4 over the two-word form and by 2 over any other word. -/
theorem pc_skipIf_advance (s : State) (c : Bool) : (s.advance.skipIf c).pc =
    if c then (if s.readWord (s.pc + 2) = 0xF000 then s.pc + 6 else s.pc + 4) else s.pc + 2 := by
  have hwidth : s.advance.skipWidth = if s.readWord (s.pc + 2) = 0xF000 then 4 else 2 := rfl
  have hpc : (s.advance.skipIf c).pc = if c then s.pc + 2 + s.advance.skipWidth else s.pc + 2 := rfl
  rw [hpc, hwidth]
  split
  · split
    · exact BitVec.add_assoc s.pc 2 4
    · exact BitVec.add_assoc s.pc 2 2
  · rfl

theorem toNat_lowNibble (s : State) (x : Reg) : (s.lowNibble x).toNat = (s.readV x).toNat % 16 :=
  BitVec.extractLsb'_toNat 0 4 (s.readV x)

theorem keyPressed_eq (s : State) (x : Reg) : s.keyPressed x = s.keys.getLsbD ((s.readV x).toNat % 16) := by
  rw [State.keyPressed, toNat_lowNibble]

/-- The target of `BNNN` (R144, D6). -/
theorem toNat_mask12_add_setWidth (nnn : BitVec 12) (b : Byte) :
    (mask12 (nnn.setWidth 16 + b.setWidth 16)).toNat = (nnn.toNat + b.toNat) % 4096 := by
  rw [toNat_mask12, BitVec.toNat_add, BitVec.toNat_setWidth, BitVec.toNat_setWidth]
  omega

/-- The instructions that set `pc`, row by row of R152. -/
theorem pc_of_exec_advance {i : Instr} {s t : State} (hi : .pc ∈ changes i) (hsp : s.sp ≤ stackDepth)
    (h : exec i s.advance = .next t) : t.pc = pcAfter s i := by
  cases i <;> simp [changes] at hi <;> obtain rfl := Host.Outcome.next.inj h
  case jp nnn => exact (BitVec.ofNat_toNat 16 nnn).symm
  case jpV0 nnn =>
    apply BitVec.eq_of_toNat_eq
    refine (toNat_mask12_add_setWidth nnn (s.readV 0)).trans ?_
    rw [pcAfter, BitVec.toNat_ofNat]
    omega
  case seVxNN x nn => exact pc_skipIf_advance s (s.readV x == nn)
  case sneVxNN x nn =>
    refine (pc_skipIf_advance s (s.readV x != nn)).trans ?_
    simp [pcAfter]
  case seVxVy x y => exact pc_skipIf_advance s (s.readV x == s.readV y)
  case sneVxVy x y n =>
    refine (pc_skipIf_advance s (s.readV x != s.readV y)).trans ?_
    simp [pcAfter]
  case skp x => exact keyPressed_eq s x ▸ pc_skipIf_advance s (s.keyPressed x)
  case sknp x => exact keyPressed_eq s x ▸ pc_skipIf_advance s (!s.keyPressed x)
  case exit => exact instrAddr_advance s
  case ldILong nnnn => exact BitVec.add_assoc s.pc 2 2
  case ldVxK x =>
    have hsame : s.advance.keys = s.keys := rfl
    rw [pcAfter, hsame]
    split
    · exact instrAddr_advance s
    · rfl
  case ret =>
    have hsame : s.advance.sp = s.sp := rfl
    rw [pcAfter, hsame]
    split
    · exact instrAddr_advance s
    · rfl
  case call nnn =>
    have hfull : stackDepth ≤ s.advance.sp ↔ s.sp = 16 :=
      ⟨fun h => Nat.le_antisymm hsp h, fun h => Nat.le_of_eq h.symm⟩
    rw [pcAfter]
    simp only [hfull]
    split
    · exact instrAddr_advance s
    · exact (BitVec.ofNat_toNat 16 nnn).symm

/-- Settles O11: an instruction that leaves `pc` alone leaves it at the word after it; the others follow R152's table. -/
theorem pcAfterCycle : Obligations.PcAfterCycle := by
  refine ⟨fun s hs => ⟨s, step_of_halted ((halted_iff s).mpr hs), rfl⟩, fun s i rest hinv hstop hfault hdec => ?_⟩
  have hstep := step_of_decode (s.halted_eq_false_iff.mpr ⟨hstop, hfault⟩) hdec
  obtain ⟨t, ht⟩ := exec_completes i s.advance
  refine ⟨t, hstep.trans ht, ?_⟩
  obtain ⟨-, hsp, -⟩ := hinv
  by_cases hi : .pc ∈ changes i
  · exact pc_of_exec_advance hi hsp ht
  · rw [pcAfter_of_pc_not_mem_changes hi]
    exact exec_sameBut ht .pc hi

/-! ### The stack fault -/

theorem takeStackFault_advance (s : State) (record : Addr → FaultRecord) :
    s.advance.takeStackFault record = { s with fault := record s.pc } := by
  have hpc : s.advance.pc - 2 = s.pc := instrAddr_advance s
  rw [State.takeStackFault_eq, hpc]
  rfl

theorem exec_call_full {s : State} (h : s.sp = 16) (nnn : BitVec 12) :
    exec (.call nnn) s = .next (s.takeStackFault .stackOverflow) := by
  simp [exec, execCall, stackDepth, h]

theorem exec_ret_empty {s : State} (h : s.sp = 0) : exec .ret s = .next (s.takeStackFault .stackUnderflow) := by
  simp [exec, execRet, h]

/-- Settles O12: the rewind undoes the fetch's advance, and the recorded fault halts every later cycle. -/
theorem stackFaultIsPreciseAndSticky : Obligations.StackFaultIsPreciseAndSticky := by
  have sticky {s : State} (h : s.fault ≠ .none) : step s = .next s := step_of_halted ((halted_iff s).mpr (.inr h))
  refine ⟨fun s nnn rest hstop hfault hsp hdec => ⟨?_, sticky (by simp)⟩,
    fun s rest hstop hfault hsp hdec => ⟨?_, sticky (by simp)⟩⟩
  · rw [step_of_decode (s.halted_eq_false_iff.mpr ⟨hstop, hfault⟩) hdec, exec_call_full (s := s.advance) hsp,
      takeStackFault_advance]
  · rw [step_of_decode (s.halted_eq_false_iff.mpr ⟨hstop, hfault⟩) hdec, exec_ret_empty (s := s.advance) hsp,
      takeStackFault_advance]

end Sys2Proof

/-! The host's events: what each may change, and what every run keeps (60_exceptions.md R205 to R213). -/

namespace Sys2Proof

open Sys2Proof.Machine Sys2Proof.Claims

theorem SameBut.refl (named : List Piece) (s : State) : SameBut named s s := by
  simp [sameBut_iff]

theorem SameBut.trans {named : List Piece} {s t u : State} (h : SameBut named s t) (h' : SameBut named t u) :
    SameBut named s u := by
  intro q hq
  have h1 := h q hq
  have h2 := h' q hq
  cases q <;> exact Eq.trans h2 h1

/-! ### What an event may change -/

/-- The pieces of state that an event may change. -/
def eventChanges : Event → List Piece
  | .reset => [.V, .I, .pc, .sp, .stack, .delayTimer, .soundTimer, .hiRes, .bitPlaneSelect, .stopped, .waitingForKey,
      .waitRegister, .fault, .planes, .memory, .redraw]
  | .cycle => [.V, .I, .pc, .sp, .stack, .delayTimer, .soundTimer, .hiRes, .bitPlaneSelect, .stopped, .waitingForKey,
      .waitRegister, .fault, .planes, .memory, .redraw, .userFlags, .audioBuffer, .draws, .diag]
  | .tick => [.delayTimer, .soundTimer]
  | .keyUpdate _ => [.keys, .V, .waitingForKey]
  | .hostWrite _ _ => [.memory]
  | .hostRead => []
  | .ackRedraw => [.redraw]
  | .setQuirks _ => [.quirks]

/-- No instruction writes the keys or the quirks. -/
theorem changes_subset_cycle (i : Instr) : changes i ⊆ eventChanges .cycle := by
  cases i <;> simp [changes, eventChanges]

theorem step_sameBut {s t : State} (h : step s = .next t) : SameBut (eventChanges .cycle) s t := by
  have hadv : SameBut (eventChanges .cycle) s s.advance := (sameBut_setPc s _).mono (by decide)
  obtain ⟨-, hstep⟩ | ⟨-, i, -, -, hstep⟩ | ⟨-, -, -, hstep⟩ := step_cases s
  · exact Host.Outcome.next.inj (hstep.symm.trans h) ▸ SameBut.refl _ s
  · exact hadv.trans ((exec_sameBut (hstep.symm.trans h)).mono (changes_subset_cycle i))
  · obtain rfl := Host.Outcome.next.inj (hstep.symm.trans h)
    refine hadv.trans ?_
    simp [sameBut_iff, eventChanges, State.unrecognized]

theorem keyUpdate_of_release {s : State} {new : BitVec 16} {k : Nat} (hwait : s.waitingForKey = true)
    (hk : releasedKey s.keys new = some k) : s.keyUpdate new = (s.commitKey k).setKeys new := by
  simp [State.keyUpdate, hwait, hk]

/-- Without a wait or a release only the key vector changes (R208). -/
theorem keyUpdate_of_no_release {s : State} {new : BitVec 16}
    (h : s.waitingForKey = false ∨ releasedKey s.keys new = none) : s.keyUpdate new = s.setKeys new := by
  obtain h | h := h <;> simp [State.keyUpdate, h]

theorem keyUpdate_sameBut (s : State) (new : BitVec 16) :
    SameBut [.keys, .V, .waitingForKey] s (s.keyUpdate new) := by
  cases hk : releasedKey s.keys new with
  | none =>
    rw [keyUpdate_of_no_release (.inr hk)]
    simp [sameBut_iff]
  | some k =>
    cases hw : s.waitingForKey with
    | false =>
      rw [keyUpdate_of_no_release (.inl hw)]
      simp [sameBut_iff]
    | true =>
      rw [keyUpdate_of_release hw hk]
      simp [sameBut_iff, State.commitKey]

theorem handle_sameBut {s t : State} {e : Event} (h : s.handle e = .next t) : SameBut (eventChanges e) s t := by
  cases e
  case cycle => exact step_sameBut h
  all_goals obtain rfl := Host.Outcome.next.inj h
  case reset => simp [sameBut_iff, eventChanges, State.resetEvent]
  case tick => simp [sameBut_iff, eventChanges, State.tick]
  case keyUpdate new => exact keyUpdate_sameBut s new
  case hostWrite a b => exact sameBut_mem s _
  case hostRead => exact SameBut.refl [] s
  case ackRedraw => simp [sameBut_iff, eventChanges, State.ackRedraw]
  case setQuirks q => simp [sameBut_iff, eventChanges]

/-! ### Runs -/

theorem runEvents_cons_next {s u : State} {e : Event} {es : List Event} (h : s.runEvents (e :: es) = .next u) :
    ∃ t, s.handle e = .next t ∧ t.runEvents es = .next u := by
  unfold State.runEvents at h
  split at h
  · next t ht => exact ⟨t, ht, h⟩
  all_goals cases h

/-- What every event of a run keeps, the run keeps. -/
theorem runEvents_induction {P : State → Prop} {es : List Event}
    (hkeep : ∀ e ∈ es, ∀ s t : State, P s → s.handle e = .next t → P t) {s u : State} (hs : P s)
    (h : s.runEvents es = .next u) : P u := by
  induction es generalizing s with
  | nil => exact Host.Outcome.next.inj h ▸ hs
  | cons e es ih =>
    obtain ⟨t, ht, hrun⟩ := runEvents_cons_next h
    exact ih (fun e' he' => hkeep e' (List.mem_cons_of_mem _ he')) (hkeep e List.mem_cons_self s t hs ht) hrun

theorem handle_inv {s t : State} {e : Event} (hs : s.Inv) (h : s.handle e = .next t) : t.Inv := by
  have hsame := handle_sameBut h
  obtain ⟨hmem, hsp, hover, hunder⟩ := hs
  cases e
  case cycle => exact cycleKeepsInvariant s t ⟨hmem, hsp, hover, hunder⟩ h
  case reset =>
    obtain rfl := Host.Outcome.next.inj h
    exact State.inv_of_no_fault (Memory.reloadFonts_wf _ hmem) (Nat.zero_le _) rfl
  case hostWrite a b =>
    obtain rfl := Host.Outcome.next.inj h
    exact ⟨State.writeByte_wf s a b hmem, hsp, hover, hunder⟩
  all_goals exact inv_of_sameBut ⟨hmem, hsp, hover, hunder⟩ hsame (by simp [eventChanges])

/-- Settles O10, by induction on the run: every event keeps the invariant. -/
theorem runsKeepInvariant : Obligations.RunsKeepInvariant :=
  fun _ _ _ hs h => runEvents_induction (fun _ _ _ _ => handle_inv) hs h

theorem handle_quirks {s t : State} {e : Event} (he : allowedOnceRunning e = true) (h : s.handle e = .next t) :
    t.quirks = s.quirks :=
  handle_sameBut h .quirks (by cases e <;> simp [allowedOnceRunning, eventChanges] at he ⊢)

/-- Settles O58, by induction on the run: the one event that sets the quirks is not admitted in it. -/
theorem quirksAreConstantOnceRunning : Obligations.QuirksAreConstantOnceRunning := by
  intro s t es hadm h
  have hall : ∀ e ∈ Event.cycle :: es, allowedOnceRunning e = true := by simpa [admissible, allowedOnceRunning] using hadm
  exact runEvents_induction (P := fun u => u.quirks = s.quirks)
    (fun e he _ _ hq ht => (handle_quirks (hall e he) ht).trans hq) rfl h

/-- Settles O56: a halted core's cycle changes nothing, and no other event but `Reset` writes the two pieces. -/
theorem onlyResetEndsAHalt : Obligations.OnlyResetEndsAHalt := by
  intro s t e he h
  by_cases hc : e = .cycle
  · subst hc
    have keeps (hhalt : s.halted = true) : t = s := Host.Outcome.next.inj (h.symm.trans (step_of_halted hhalt))
    exact ⟨fun hs => keeps ((halted_iff s).mpr (.inl hs)) ▸ hs, fun hf => keeps ((halted_iff s).mpr (.inr hf)) ▸ rfl⟩
  · have hsame := handle_sameBut h
    have hstopped : t.stopped = s.stopped := hsame .stopped (by cases e <;> simp [eventChanges] at he hc ⊢)
    have hfault : t.fault = s.fault := hsame .fault (by cases e <;> simp [eventChanges] at he hc ⊢)
    exact ⟨fun hs => hstopped.trans hs, fun _ => hfault⟩

/-- Settles O57: the other events' rows of `eventChanges` lie within the named pieces. -/
theorem onlyCycleAndResetMovePc : Obligations.OnlyCycleAndResetMovePc := by
  intro s t e hreset hcycle h
  have hsub : eventChanges e ⊆ [.keys, .V, .waitingForKey, .delayTimer, .soundTimer, .memory, .redraw, .quirks] := by
    cases e <;> simp [eventChanges] at hreset hcycle ⊢
  have hsame := (handle_sameBut h).mono hsub
  exact ⟨hsame .pc (by decide), hsame.onlyChanges⟩

end Sys2Proof

/-! What each event does (60_exceptions.md R205, R207 to R212), the state after reset (10_state.md R43,
70_reset_and_hazards.md R231), and memory under stores (20_memory.md section 7). -/

namespace Sys2Proof

open Sys2Proof.Machine Sys2Proof.Claims

theorem handle_onlyChanges {s t : State} {e : Event} (h : s.handle e = .next t) : OnlyChanges (eventChanges e) s t :=
  (handle_sameBut h).onlyChanges

/-! ### Ticks -/

theorem toNat_countDown (t : Byte) : (countDown t).toNat = t.toNat - 1 := by
  unfold countDown
  split
  · next h => simp [h]
  · next h => bv_omega

/-- Settles O53: truncated subtraction is the count down. -/
theorem tickCountsTimersDown : Obligations.TickCountsTimersDown :=
  fun s => ⟨s.tick, rfl, toNat_countDown _, toNat_countDown _, handle_onlyChanges (e := .tick) rfl⟩

/-! ### Key updates -/

theorem not_released_iff (old new : Bool) : (!(old && !new)) = true ↔ ¬ (old = true ∧ new = false) := by
  revert old new
  decide

/-- The lowest released key, as R208 and D14 say it. -/
theorem releasedKey_eq_some {old new : BitVec 16} {k : Nat} (hk : k < 16) (hold : old.getLsbD k = true)
    (hnew : new.getLsbD k = false) (hleast : ∀ j < k, ¬ (old.getLsbD j = true ∧ new.getLsbD j = false)) :
    releasedKey old new = some k := by
  refine List.find?_range_eq_some.mpr ⟨by simp [hold, hnew], List.mem_range.mpr hk, fun j hj => ?_⟩
  exact (not_released_iff _ _).mpr (hleast j hj)

theorem releasedKey_eq_none {old new : BitVec 16} (h : ∀ k < 16, ¬ (old.getLsbD k = true ∧ new.getLsbD k = false)) :
    releasedKey old new = none :=
  List.find?_range_eq_none.mpr fun k hk => (not_released_iff _ _).mpr (h k hk)

/-- Settles O54: `releasedKey` is the lowest released key, and the commit writes one register. -/
theorem keyReleaseCommitsLowestKey : Obligations.KeyReleaseCommitsLowestKey := by
  intro s new
  refine ⟨_, rfl, ?_, (keyUpdate_sameBut s new).onlyChanges, fun k hk hwait hold hnew hleast => ?_, fun h => ?_⟩
  · cases hk : releasedKey s.keys new <;> cases hw : s.waitingForKey <;> simp [State.keyUpdate, hk, hw]
  · rw [keyUpdate_of_release hwait (releasedKey_eq_some hk hold hnew hleast)]
    refine ⟨?_, rfl, fun r hr => s.readV_writeV_ne (List.ne_of_not_mem_cons hr) _⟩
    have hread : ((s.commitKey k).setKeys new).readV s.waitRegister = BitVec.ofNat 8 k :=
      s.readV_writeV_same s.waitRegister _
    rw [hread, BitVec.toNat_ofNat]
    omega
  · rw [keyUpdate_of_no_release (h.imp_right releasedKey_eq_none)]
    have hsame : SameBut [.keys] s (s.setKeys new) := by simp [sameBut_iff]
    exact hsame.onlyChanges

/-! ### The other host events -/

theorem readByte_writeByte_same (s : State) (a : Addr) (b : Byte) : (s.writeByte a b).readByte a = b := by
  rw [State.readByte_writeByte, if_pos rfl]

theorem bytesKept_writeByte (s : State) (a : Addr) (b : Byte) : BytesKept [a] s (s.writeByte a b) := fun q hq => by
  rw [State.readByte_writeByte, if_neg (List.ne_of_not_mem_cons hq)]

/-- Settles O55: a store is read back at its address alone; the frames are rows of `eventChanges`. -/
theorem hostEventsChangeTheirOwnState : Obligations.HostEventsChangeTheirOwnState :=
  fun s a b q =>
    ⟨⟨_, rfl, readByte_writeByte_same s a b, bytesKept_writeByte s a b, handle_onlyChanges (e := .hostWrite a b) rfl⟩,
      rfl, ⟨_, rfl, rfl, handle_onlyChanges (e := .ackRedraw) rfl⟩,
      ⟨_, rfl, rfl, handle_onlyChanges (e := .setQuirks q) rfl⟩⟩

/-! ### The glyph tables as memory -/

theorem length_fontSmall : fontSmall.length = 80 := by decide

theorem fontByte_small {a : Nat} (h : a < 80) : fontByte a = fontSmall[a]? :=
  List.getElem?_append_left (length_fontSmall ▸ h)

theorem fontByte_big {a : Nat} (h : 80 ≤ a) : fontByte a = fontBig[a - 80]? := by
  rw [fontByte, List.getElem?_append_right (length_fontSmall ▸ h), length_fontSmall]

theorem some_getD_fontByte {a : Nat} (h : a < fontEnd) (d : Byte) : some ((fontByte a).getD d) = fontByte a := by
  obtain ⟨b, hb⟩ := Option.isSome_iff_exists.mp (fontByte_isSome h)
  rw [hb, Option.getD_some]

/-! ### Reset -/

theorem readByte_reset (a : Addr) : State.reset.readByte a = (fontByte a.toNat).getD (Config.memInit a.toNat) := rfl

theorem readByte_resetEvent (s : State) (a : Addr) : s.resetEvent.readByte a =
    if a.toNat < fontEnd then (fontByte a.toNat).getD (Config.memInit a.toNat) else s.readByte a :=
  Memory.read_reloadFonts s.mem a.toNat

theorem readV_reset (r : Reg) : State.reset.readV r = 0 := Vector.getElem_replicate _

theorem stack_reset (k : Fin 16) : State.reset.stack[k] = 0 := Vector.getElem_replicate _

theorem pixel_reset (p : Fin 2) (y : Fin 64) (x : Fin 128) : State.reset.pixel p y x = false := by
  simp [State.pixel, State.plane, State.reset]

/-- Settles O59: the bytes by `readByte_resetEvent`; everything else is the state after reset or the state before. -/
theorem resetEventSetsAndKeeps : Obligations.ResetEventSetsAndKeeps := by
  intro s
  refine ⟨s.resetEvent, rfl, readV_reset, rfl, rfl, rfl, stack_reset, rfl, rfl, pixel_reset, rfl, rfl, rfl, rfl, rfl,
    rfl, rfl, fun a ha => ?_, fun a ha hlt => ?_, fun a ha => ?_, rfl, rfl, rfl, rfl⟩
  · have hfont : a.toNat < fontEnd := Nat.lt_trans ha (by decide)
    rw [readByte_resetEvent, if_pos hfont, some_getD_fontByte hfont, fontByte_small ha]
  · have hfont : a.toNat < fontEnd := hlt
    rw [readByte_resetEvent, if_pos hfont, some_getD_fontByte hfont, fontByte_big ha]
  · have hfont : ¬ a.toNat < fontEnd := Nat.not_lt.mpr ha
    rw [readByte_resetEvent, if_neg hfont]

/-- Settles O60: memory lists nothing, so every byte is a glyph byte or the free value. -/
theorem machineStartsFromResetValues : Obligations.MachineStartsFromResetValues := by
  refine ⟨rfl, readV_reset, rfl, rfl, stack_reset, rfl, rfl, pixel_reset, rfl, rfl, rfl, rfl, rfl, rfl, rfl, rfl,
    fun a ha => ?_, fun a ha hlt => ?_, fun a ha => ?_, fun k => ?_, fun k => ?_, rfl⟩
  · rw [readByte_reset, some_getD_fontByte (Nat.lt_trans ha (by decide)), fontByte_small ha]
  · rw [readByte_reset, some_getD_fontByte hlt, fontByte_big ha]
  · rw [readByte_reset, fontByte_eq_none ha, Option.getD_none]
  · exact Vector.getElem_ofFn _
  · exact Vector.getElem_ofFn _

/-! ### Stores -/

/-- A run of stores, by induction on the stores: the byte stored last at an address, or the one before. -/
theorem runEvents_hostWrites (ws : List (Addr × Byte)) (s : State) :
    ∃ t, s.runEvents (ws.map fun w => .hostWrite w.1 w.2) = .next t ∧ SameBut [.memory] s t ∧
      ∀ q, t.readByte q = ((ws.reverse.find? fun w => w.1 = q).map Prod.snd).getD (s.readByte q) := by
  induction ws generalizing s with
  | nil => exact ⟨s, rfl, SameBut.refl _ s, fun q => rfl⟩
  | cons w ws ih =>
    obtain ⟨t, hrun, hsame, hread⟩ := ih (s.writeByte w.1 w.2)
    refine ⟨t, hrun, (sameBut_mem s _).trans hsame, fun q => ?_⟩
    rw [hread, List.reverse_cons, List.find?_append, State.readByte_writeByte]
    cases ws.reverse.find? fun w => w.1 = q with
    | some w' => rfl
    | none =>
      by_cases hq : w.1 = q
      · simp [hq]
      · simp [hq, Ne.symm hq]

theorem Memory.write_comm (m : Memory) {a a' : Nat} (b b' : Byte) (hm : m.wf) (ha : a < memSize) (ha' : a' < memSize)
    (hne : a ≠ a') : (m.write a b).write a' b' = (m.write a' b').write a b := by
  refine Memory.eq_of_known_eq _ _ (Memory.write_wf _ _ _ (Memory.write_wf _ _ _ hm ha) ha')
    (Memory.write_wf _ _ _ (Memory.write_wf _ _ _ hm ha') ha) fun q => ?_
  simp only [Memory.known_write]
  by_cases h : a = q
  · subst h
    simp [hne.symm]
  · simp [h]

/-- Settles O36: the stores by induction, their order by the canonical form of memory. -/
theorem memoryHoldsLastWrite : Obligations.MemoryHoldsLastWrite := by
  refine ⟨fun s ws => ?_, fun s a a' b b' hm hne => ?_⟩
  · obtain ⟨t, hrun, hsame, hread⟩ := runEvents_hostWrites ws s
    exact ⟨t, hrun, hsame.onlyChanges, hread⟩
  · have hcomm := Memory.write_comm s.mem b b' hm a.isLt a'.isLt fun h => hne (BitVec.eq_of_toNat_eq h)
    exact congrArg (fun m : Memory => { s with mem := m }) hcomm

end Sys2Proof

/-! The instructions of files 40, 42 and 44 one by one: the value each writes; the frame is `exec_sameBut`'s. -/

namespace Sys2Proof

open Sys2Proof.Machine Sys2Proof.Claims

/-! ### Arithmetic and logic (40_alu.md) -/

theorem exec_onlyChanges {i : Instr} {s t : State} (h : exec i s = .next t) : OnlyChanges (changes i) s t :=
  (exec_sameBut h).onlyChanges

theorem ofNat_toNat_add_mod (a b : Byte) : BitVec.ofNat 8 ((a.toNat + b.toNat) % 256) = a + b := by
  apply BitVec.eq_of_toNat_eq
  rw [BitVec.toNat_ofNat, BitVec.toNat_add]
  omega

/-- Settles O17: one register write of the wrapped sum. -/
theorem addImmediateWrapsWithoutFlag : Obligations.AddImmediateWrapsWithoutFlag := fun x nn s => by
  rw [ofNat_toNat_add_mod]
  exact writesOnly_of_exec rfl

/-- Settles O18: one register write. -/
theorem copyWritesRegister : Obligations.CopyWritesRegister := fun _ _ _ => writesOnly_of_exec rfl

/-- Settles O19: one register write each, and the library's bit of each bitwise operation. -/
theorem logicWorksBitwiseWithoutFlag : Obligations.LogicWorksBitwiseWithoutFlag := fun x y s =>
  ⟨⟨s.readV x ||| s.readV y, writesOnly_of_exec rfl, fun _ _ => BitVec.getLsbD_or⟩,
    ⟨s.readV x &&& s.readV y, writesOnly_of_exec rfl, fun _ _ => BitVec.getLsbD_and⟩,
    ⟨s.readV x ^^^ s.readV y, writesOnly_of_exec rfl, fun _ _ => BitVec.getLsbD_xor⟩⟩

theorem toNat_sub_byte (a b : Byte) : (a - b).toNat = (a.toNat + 256 - b.toNat) % 256 := by
  rw [BitVec.toNat_sub]
  omega

theorem toNat_notBorrow (a b : Byte) : (notBorrow a b).toNat = if a.toNat ≥ b.toNat then 1 else 0 := by
  by_cases h : b.toNat ≤ a.toNat <;> simp [notBorrow, h]

/-- Settles O21: 8XY7 is 8XY5 with the operands exchanged. -/
theorem subtractionsSetNotBorrowLast : Obligations.SubtractionsSetNotBorrowLast := by
  intro x y s
  rw [← toNat_sub_byte, ← toNat_sub_byte, ← toNat_notBorrow, ← toNat_notBorrow]
  exact ⟨writesWithFlag_of_exec rfl, writesWithFlag_of_exec rfl⟩

theorem toNat_shiftRight_one (v : Byte) : (v >>> 1).toNat = v.toNat / 2 := by
  rw [BitVec.toNat_ushiftRight, Nat.shiftRight_eq_div_pow]

theorem toNat_shiftLeft_one (v : Byte) : (v <<< 1).toNat = v.toNat * 2 % 256 := by
  rw [BitVec.toNat_shiftLeft, Nat.shiftLeft_eq]

theorem toNat_shiftedOutRight (v : Byte) : (shiftedOutRight v).toNat = v.toNat % 2 := by
  revert v
  decide

theorem toNat_shiftedOutLeft (v : Byte) : (shiftedOutLeft v).toNat = v.toNat / 128 := by
  revert v
  decide

/-- Settles O22: the source of both shifts is `shiftSource`. -/
theorem shiftsUseQuirkSource : Obligations.ShiftsUseQuirkSource := by
  rintro x y s src rfl
  rw [← toNat_shiftRight_one, ← toNat_shiftLeft_one, ← toNat_shiftedOutRight, ← toNat_shiftedOutLeft]
  exact ⟨writesWithFlag_of_exec rfl, writesWithFlag_of_exec rfl⟩

/-- Settles O23: a bit of a conjunction is a bit of the mask. -/
theorem randomIsMaskedDraw : Obligations.RandomIsMaskedDraw := by
  intro x nn s
  have hread : (s.countDraw.writeV x (s.drawnByte &&& nn)).readV x = (Config.rnd s.draws &&& nn) :=
    State.readV_writeV_same _ x _
  refine ⟨_, rfl, hread, fun b _ hb => ?_, rfl, fun r hr => State.readV_writeV_ne _ (List.ne_of_not_mem_cons hr) _,
    exec_onlyChanges (i := .rnd x nn) rfl⟩
  rw [hread, BitVec.getLsbD_and, Bool.and_eq_true] at hb
  exact hb.2

/-! ### The index register and the audio pattern (41_memory_ops.md) -/

/-- Settles O24: widening keeps the number. -/
theorem loadIndexTakesTwelveBits : Obligations.LoadIndexTakesTwelveBits := fun nnn s =>
  ⟨_, rfl, BitVec.toNat_setWidth_of_le (by decide), exec_onlyChanges (i := .ldINNN nnn) rfl⟩

/-- Settles O26: the width of `I` is the modulus. -/
theorem addIndexWrapsWithoutFlag : Obligations.AddIndexWrapsWithoutFlag := by
  intro x s
  refine ⟨_, rfl, ?_, exec_onlyChanges (i := .addIVx x) rfl⟩
  rw [State.setI_I, BitVec.toNat_add, BitVec.toNat_setWidth_of_le (by decide)]

/-- Settles O27: no product of a digit reaches 65536. -/
theorem glyphAddressesUseLowNibble : Obligations.GlyphAddressesUseLowNibble := by
  intro x s
  have hlow := toNat_lowNibble s x
  refine ⟨⟨_, rfl, ?_, exec_onlyChanges (i := .ldFVx x) rfl⟩, ⟨_, rfl, ?_, exec_onlyChanges (i := .ldHFVx x) rfl⟩⟩
  · rw [← hlow, State.setI_I]
    simp
    omega
  · rw [← hlow, State.setI_I]
    simp
    omega

theorem add_ofNat_eq (a : Addr) (k : Nat) : a + BitVec.ofNat 16 k = BitVec.ofNat 16 ((a.toNat + k) % 65536) := by
  apply BitVec.eq_of_toNat_eq
  rw [BitVec.toNat_add, BitVec.toNat_ofNat, BitVec.toNat_ofNat]
  omega

/-- Settles O35: the address width is the modulus. -/
theorem audioCopiesSixteenBytes : Obligations.AudioCopiesSixteenBytes := by
  intro s
  refine ⟨_, rfl, fun k => ?_, exec_onlyChanges (i := .audio) rfl⟩
  rw [← add_ofNat_eq]
  exact Vector.getElem_ofFn _

/-! ### Control transfer (42_control_flow.md) -/

/-- Settles O37: widening keeps the number. -/
theorem jumpLoadsTwelveBits : Obligations.JumpLoadsTwelveBits := fun nnn s =>
  ⟨_, rfl, BitVec.toNat_setWidth_of_le (by decide), exec_onlyChanges (i := .jp nnn) rfl⟩

theorem exec_call_free {s : State} (h : s.sp < 16) (nnn : BitVec 12) :
    exec (.call nnn) s = .next ((s.push s.pc).setPc (nnn.setWidth 16)) := by
  simp [exec, execCall, stackDepth, Nat.not_le.mpr h]

theorem exec_ret_nonempty {s : State} (h : 0 < s.sp) : exec .ret s = .next (s.pop.setPc s.stackTop) := by
  simp [exec, execRet, Nat.ne_of_gt h]

/-- Settles O38: the two branches of the call, told by the stack's depth. -/
theorem callPushesOrOverflows : Obligations.CallPushesOrOverflows := by
  refine ⟨fun nnn s h => ?_, fun nnn s h => ?_⟩
  · refine ⟨_, exec_call_free h nnn, ?_, rfl, BitVec.toNat_setWidth_of_le (by decide), SameBut.onlyChanges ?_⟩
    · exact Vector.ext fun k hk => by simp [Vector.getElem_setIfInBounds, Vector.getElem_set]
    · simp [sameBut_iff]
  · exact ⟨_, exec_call_full h nnn, rfl, rfl, ((sameBut_takeStackFault s _).mono (by decide)).onlyChanges⟩

/-- Settles O39: the two branches of the return, told by whether the stack is empty. -/
theorem returnPopsOrUnderflows : Obligations.ReturnPopsOrUnderflows := by
  refine ⟨fun s ⟨hpos, hle⟩ => ?_, fun s h => ?_⟩
  · refine ⟨_, exec_ret_nonempty hpos, ?_, rfl, SameBut.onlyChanges ?_⟩
    · have hlt : s.sp - 1 < 16 := by omega
      simp [State.stackTop, hlt]
    · simp [sameBut_iff]
  · exact ⟨_, exec_ret_empty h, rfl, rfl, ((sameBut_takeStackFault s _).mono (by decide)).onlyChanges⟩

/-- Settles O40: the mask is the remainder by 4096. -/
theorem offsetJumpWrapsAtTwelveBits : Obligations.OffsetJumpWrapsAtTwelveBits := fun nnn s =>
  ⟨_, rfl, toNat_mask12_add_setWidth nnn (s.readV 0), exec_onlyChanges (i := .jpV0 nnn) rfl⟩

/-- What every skip does with its condition `c` (R145). -/
theorem completes_of_skip {i : Instr} {s : State} {c : Bool} (h : exec i s = .next (s.skipIf c)) :
    Completes i s fun t => t.pc = (if c = true
      then s.pc + (if s.readByte s.pc ++ s.readByte (s.pc + 1) = 0xF000#16 then 4 else 2) else s.pc) ∧
      OnlyChanges [.pc] s t :=
  ⟨_, h, rfl, (sameBut_setPc s _).onlyChanges⟩

/-- Settles O41: `completes_of_skip` at each of the four conditions. -/
theorem registerSkipsFollowConditions : Obligations.RegisterSkipsFollowConditions := by
  rintro s width rfl x y n nn
  refine ⟨?_, ?_, ?_, ?_⟩
  · simpa using completes_of_skip (i := .seVxNN x nn) (c := s.readV x == nn) rfl
  · simpa using completes_of_skip (i := .sneVxNN x nn) (c := s.readV x != nn) rfl
  · simpa using completes_of_skip (i := .seVxVy x y) (c := s.readV x == s.readV y) rfl
  · simpa using completes_of_skip (i := .sneVxVy x y n) (c := s.readV x != s.readV y) rfl

/-- Settles O42: `completes_of_skip` at the key and at its negation. -/
theorem keySkipsFollowKeys : Obligations.KeySkipsFollowKeys := by
  rintro s width rfl x
  rw [← keyPressed_eq]
  refine ⟨completes_of_skip rfl, ?_⟩
  have hnot := completes_of_skip (i := .sknp x) (s := s) (c := !s.keyPressed x) rfl
  cases hkey : s.keyPressed x <;> simpa [hkey] using hnot

/-! ### Timers and the key wait (44_timer_key_system.md) -/

/-- Settles O50: one write each. -/
theorem timerMovesCopyBytes : Obligations.TimerMovesCopyBytes := fun x _ =>
  ⟨writesOnly_of_exec rfl, ⟨_, rfl, rfl, exec_onlyChanges (i := .ldDTVx x) rfl⟩,
    ⟨_, rfl, rfl, exec_onlyChanges (i := .ldSTVx x) rfl⟩⟩

theorem exec_ldVxK (x : Reg) (s : State) :
    exec (.ldVxK x) s = .next (if s.keys = 0 then s.rewind.armWait x else s) := rfl

/-- Settles O51: the key vector is 0 exactly if no key is pressed. -/
theorem waitForKeyRewindsUntilPress : Obligations.WaitForKeyRewindsUntilPress := by
  refine ⟨fun x s h => ?_, fun x s ⟨k, hk, h⟩ => ?_⟩
  · have hkeys : s.keys = 0 := BitVec.eq_of_getLsbD_eq fun k hk => by simp [h k hk]
    have hexec : exec (.ldVxK x) s = .next (s.rewind.armWait x) := by rw [exec_ldVxK, if_pos hkeys]
    exact ⟨_, hexec, rfl, rfl, rfl, exec_onlyChanges hexec⟩
  · have hkeys : s.keys ≠ 0 := fun h0 => by simp [h0] at h
    have hexec : exec (.ldVxK x) s = .next s := by rw [exec_ldVxK, if_neg hkeys]
    exact ⟨s, hexec, (SameBut.refl [] s).onlyChanges⟩

end Sys2Proof

/-! Clearing, scrolling and resolution, pixel by pixel (43_graphics.md R161 to R169). -/

namespace Sys2Proof

open Sys2Proof.Machine Sys2Proof.Claims

/-- What an instruction does that changes the selected planes by `f`. -/
theorem completes_of_mapSelected {i : Instr} {s : State} {f : Plane → Plane}
    (h : exec i s = .next (s.mapSelected f).markRedraw) {new : Fin 2 → Fin 64 → Fin 128 → Bool}
    (hf : ∀ p y x, (f (s.plane p))[y].getLsbD x = new p y x) :
    Completes i s fun t =>
      (∀ p y x, t.pixel p y x = if s.selected p = true then new p y x else s.pixel p y x) ∧
      t.redraw = true ∧ OnlyChanges [.planes, .redraw] s t :=
  ⟨_, h, fun p y x => hf p y x ▸ s.pixel_mapSelected f p y x, rfl, (sameBut_mapSelected s f).onlyChanges⟩

theorem getLsbD_blank (y : Fin 64) (x : Nat) : Plane.blank[y].getLsbD x = false := by
  simp [Plane.blank]

/-- Settles O43: the change of a selected plane is to the blank one. -/
theorem clearZeroesSelectedPlanes : Obligations.ClearZeroesSelectedPlanes :=
  fun _ => completes_of_mapSelected (i := .cls) rfl fun _ y x => getLsbD_blank y x

/-! ### Scrolls -/

theorem pixel_scrollDown (s : State) (n : Nat) (p : Fin 2) (y : Fin 64) (x : Fin 128) :
    (Plane.scrollDown n (s.plane p))[y].getLsbD x =
      if h : n ≤ y.val then s.pixel p ⟨y.val - n, by omega⟩ x else false := by
  rw [Plane.getLsbD_scrollDown]
  by_cases h : n ≤ y.val
  · have hlt : y.val - n < 64 := by omega
    simp [h, hlt, State.pixel]
  · simp [h]

theorem pixel_scrollUp (s : State) (n : Nat) (p : Fin 2) (y : Fin 64) (x : Fin 128) :
    (Plane.scrollUp n (s.plane p))[y].getLsbD x =
      if h : y.val + n ≤ 63 then s.pixel p ⟨y.val + n, by omega⟩ x else false := by
  rw [Plane.getLsbD_scrollUp]
  by_cases h : y.val + n ≤ 63
  · have hlt : y.val + n < 64 := by omega
    simp [h, hlt, State.pixel]
  · have hge : ¬ y.val + n < 64 := by omega
    simp [h, hge]

theorem pixel_scrollRight (s : State) (n : Nat) (p : Fin 2) (y : Fin 64) (x : Fin 128) :
    (Plane.scrollRight n (s.plane p))[y].getLsbD x =
      if h : n ≤ x.val then s.pixel p y ⟨x.val - n, by omega⟩ else false := by
  rw [Plane.getLsbD_scrollRight]
  by_cases h : n ≤ x.val <;> simp [h, State.pixel]

theorem pixel_scrollLeft (s : State) (n : Nat) (p : Fin 2) (y : Fin 64) (x : Fin 128) :
    (Plane.scrollLeft n (s.plane p))[y].getLsbD x =
      if h : x.val + n ≤ 127 then s.pixel p y ⟨x.val + n, by omega⟩ else false := by
  rw [Plane.getLsbD_scrollLeft, Nat.add_comm]
  by_cases h : x.val + n ≤ 127
  · simp [h, State.pixel]
  · rw [dif_neg h, BitVec.getLsbD_of_ge _ _ (by omega)]

/-- Settles O44: the two row scrolls, pixel by pixel. -/
theorem verticalScrollsMoveRows : Obligations.VerticalScrollsMoveRows := fun n s _ =>
  ⟨completes_of_mapSelected (i := .scd n) rfl (pixel_scrollDown s n),
    completes_of_mapSelected (i := .scu n) rfl (pixel_scrollUp s n)⟩

/-- Settles O45: the two column scrolls, pixel by pixel. -/
theorem horizontalScrollsMoveColumns : Obligations.HorizontalScrollsMoveColumns := fun s =>
  ⟨completes_of_mapSelected (i := .scr) rfl (pixel_scrollRight s 4),
    completes_of_mapSelected (i := .scl) rfl (pixel_scrollLeft s 4)⟩

/-- Settles O46: a column that the left scroll moved out is not there to move back. -/
theorem scrollLeftThenRightLosesLeftColumns : Obligations.ScrollLeftThenRightLosesLeftColumns := by
  intro n old y x
  rw [Plane.getLsbD_scrollRight, Plane.getLsbD_scrollLeft]
  by_cases h : x.val < n
  · simp [h]
  · have hback : n + (x.val - n) = x.val := by omega
    simp [h, hback]

/-! ### Resolution and plane select -/

theorem pixel_switchResolution (s : State) (high : Bool) (p : Fin 2) (y : Fin 64) (x : Fin 128) :
    (s.switchResolution high).pixel p y x =
      if s.quirks.clearOnResolutionChange = true then false else s.pixel p y x := by
  cases h : s.quirks.clearOnResolutionChange <;>
    simp [State.switchResolution, h, State.pixel, State.plane, Plane.blank]

/-- What `00FE` and `00FF` do, one with `high = false` and one with `high = true`. -/
theorem completes_of_switchResolution {i : Instr} {s : State} {high : Bool}
    (h : exec i s = .next (s.switchResolution high)) :
    Completes i s fun t => t.hiRes = high ∧
      (∀ p y x, t.pixel p y x = if s.quirks.clearOnResolutionChange = true then false else s.pixel p y x) ∧
      t.redraw = true ∧ OnlyChanges [.hiRes, .planes, .redraw] s t :=
  ⟨_, h, rfl, pixel_switchResolution s high, rfl, (sameBut_switchResolution s high).onlyChanges⟩

/-- Settles O47: one operation for both resolutions; the mask is the immediate's two low bits. -/
theorem resolutionAndPlaneSelectAreSet : Obligations.ResolutionAndPlaneSelectAreSet := fun n _ =>
  ⟨completes_of_switchResolution rfl, completes_of_switchResolution rfl,
    ⟨_, rfl, BitVec.extractLsb'_toNat 0 2 n, exec_onlyChanges (i := .plane n) rfl⟩⟩

end Sys2Proof

/-! Block transfers between registers and memory, and between registers and the flag bytes (41_memory_ops.md R126 to
R131). -/

namespace Sys2Proof

open Sys2Proof.Machine Sys2Proof.Claims

/-! ### Stores -/

/-- A block store changes no byte outside its block of masked addresses. -/
theorem bytesKept_storeRegs (s : State) (a : Addr) (rs : List Reg) :
    BytesKept ((List.range rs.length).map fun k => mask12 (a + BitVec.ofNat 16 k)) s (s.storeRegs a rs) := by
  intro q hq
  refine s.readByte_storeRegs_outside a q rs fun k hk he => hq ?_
  exact List.mem_map.mpr ⟨k, List.mem_range.mpr hk, he.symm⟩

theorem length_regsUpTo_le (x : Reg) : (regsUpTo x).length ≤ 4096 := by
  rw [regsUpTo_length]
  omega

/-- The `k`-th byte of the block that FX55 stores. -/
theorem readByte_storeRegs_regsUpTo (s : State) (a : Addr) {x : Reg} {k : Nat} (hk : k ≤ x.toNat) :
    (s.storeRegs a (regsUpTo x)).readByte (mask12 (a + BitVec.ofNat 16 k)) = s.readV (BitVec.ofNat 4 k) := by
  have hlt : k < (regsUpTo x).length := by
    rw [regsUpTo_length]
    omega
  rw [s.readByte_storeRegs a _ (length_regsUpTo_le x) k hlt, regsUpTo_getElem]

/-- The increment of `I` under the quirk (R126, R127). -/
theorem toNat_I_incrementI (s : State) (x : Reg) : (s.incrementI x).I.toNat =
    if s.quirks.loadStoreIncrementsI = true then (s.I.toNat + x.toNat + 1) % 65536 else s.I.toNat := by
  rw [State.incrementI_eq]
  split
  · have hx : (x.setWidth 16).toNat = x.toNat := BitVec.toNat_setWidth_of_le (by decide)
    have h1 : (1 : Addr).toNat = 1 := rfl
    simp only [BitVec.toNat_add, hx, h1]
    omega
  · rfl

theorem storeRegs_I (s : State) (a : Addr) (rs : List Reg) : (s.storeRegs a rs).I = s.I := by
  rw [State.storeRegs_eq]

theorem storeRegs_quirks (s : State) (a : Addr) (rs : List Reg) : (s.storeRegs a rs).quirks = s.quirks := by
  rw [State.storeRegs_eq]

theorem loadRegs_I (s : State) (a : Addr) (rs : List Reg) : (s.loadRegs a rs).I = s.I := by
  rw [State.loadRegs_eq]

theorem loadRegs_quirks (s : State) (a : Addr) (rs : List Reg) : (s.loadRegs a rs).quirks = s.quirks := by
  rw [State.loadRegs_eq]

theorem exec_ldMemVx (x : Reg) (s : State) :
    exec (.ldMemVx x) s = .next ((s.storeRegs s.I (regsUpTo x)).incrementI x) := rfl

/-- Settles O29: the block store, then the increment. -/
theorem storeRegistersWritesMaskedBlock : Obligations.StoreRegistersWritesMaskedBlock := by
  intro x s
  refine ⟨_, exec_ldMemVx x s, fun k hk => ⟨?_, toNat_mask12_add s.I k⟩, ?_, ?_, exec_onlyChanges (exec_ldMemVx x s)⟩
  · exact readByte_storeRegs_regsUpTo s s.I hk
  · have h := bytesKept_storeRegs s s.I (regsUpTo x)
    rw [regsUpTo_length] at h
    exact h
  · rw [toNat_I_incrementI, storeRegs_I, storeRegs_quirks]

/-! ### Loads -/

/-- The register that FX65 loads from the byte of its number. -/
theorem readV_loadRegs_regsUpTo (s : State) (a : Addr) {x r : Reg} (hr : r.toNat ≤ x.toNat) :
    (s.loadRegs a (regsUpTo x)).readV r = s.readByte (mask12 (a + BitVec.ofNat 16 r.toNat)) := by
  have hlt : r.toNat < (regsUpTo x).length := by
    rw [regsUpTo_length]
    omega
  have h := s.readV_loadRegs a (regsUpTo x) (regsUpTo_nodup x) r.toNat hlt
  rwa [regsUpTo_getElem, BitVec.ofNat_toNat, BitVec.setWidth_eq] at h

theorem mem_regsUpTo (x r : Reg) : r ∈ regsUpTo x ↔ r.toNat ≤ x.toNat := by
  revert x r
  decide

theorem exec_ldVxMem (x : Reg) (s : State) :
    exec (.ldVxMem x) s = .next ((s.loadRegs s.I (regsUpTo x)).incrementI x) := rfl

/-- Settles O30: the block load, then the increment. -/
theorem loadRegistersReadsMaskedBlock : Obligations.LoadRegistersReadsMaskedBlock := by
  intro x s
  refine ⟨_, exec_ldVxMem x s, fun r hr => ⟨?_, toNat_mask12_add s.I r.toNat⟩, fun r hr => ?_, ?_,
    exec_onlyChanges (exec_ldVxMem x s)⟩
  · exact readV_loadRegs_regsUpTo s s.I hr
  · exact s.readV_loadRegs_outside s.I _ r fun hmem => Nat.not_le.mpr hr ((mem_regsUpTo x r).mp hmem)
  · rw [toNat_I_incrementI, loadRegs_I, loadRegs_quirks]

/-- Settles O31: the load reads the bytes that the store wrote, at the same masked addresses. -/
theorem storeThenLoadRestoresRegisters : Obligations.StoreThenLoadRestoresRegisters := by
  intro x s t u regs ht hu r hr
  obtain ⟨t', ht', hstored, -⟩ := storeRegistersWritesMaskedBlock x s
  obtain ⟨u', hu', hloaded, -⟩ := loadRegistersReadsMaskedBlock x { t with V := regs, I := s.I }
  obtain rfl := eq_of_exec ht ht'
  obtain rfl := eq_of_exec hu hu'
  have hreg : BitVec.ofNat 4 r.toNat = r := by rw [BitVec.ofNat_toNat, BitVec.setWidth_eq]
  calc u.readV r
      = t.readByte (mask12 (s.I + BitVec.ofNat 16 r.toNat)) := (hloaded r hr).1
    _ = s.readV (BitVec.ofNat 4 r.toNat) := (hstored r.toNat hr).1
    _ = s.readV r := by rw [hreg]

/-! ### Register ranges -/

theorem regRange_up {x y : Reg} (h : x.toNat ≤ y.toNat) :
    regRange x y = (List.range (y.toNat - x.toNat + 1)).map fun k => x + BitVec.ofNat 4 k := if_pos h

theorem regRange_down {x y : Reg} (h : y.toNat < x.toNat) :
    regRange x y = (List.range (x.toNat - y.toNat + 1)).map fun k => x - BitVec.ofNat 4 k := if_neg (Nat.not_le.mpr h)

/-- Storing the registers `f 0, f 1, ..., f n` at rising addresses. -/
theorem storeRegs_map_range (s : State) (a : Addr) (f : Nat → Reg) {n : Nat} (hn : n < 16) :
    (∀ k ≤ n, (s.storeRegs a ((List.range (n + 1)).map f)).readByte (mask12 (a + BitVec.ofNat 16 k)) = s.readV (f k) ∧
      (mask12 (a + BitVec.ofNat 16 k)).toNat = (a.toNat + k) % 4096) ∧
    BytesKept ((List.range (n + 1)).map fun k => mask12 (a + BitVec.ofNat 16 k)) s
      (s.storeRegs a ((List.range (n + 1)).map f)) := by
  have hlen : ((List.range (n + 1)).map f).length = n + 1 := by simp
  refine ⟨fun k hk => ⟨?_, toNat_mask12_add a k⟩, ?_⟩
  · rw [s.readByte_storeRegs a _ (by omega) k (by omega), List.getElem_map, List.getElem_range]
  · have h := bytesKept_storeRegs s a ((List.range (n + 1)).map f)
    rwa [hlen] at h

/-- Loading the registers `f 0, f 1, ..., f n` from rising addresses. -/
theorem readV_loadRegs_map_range (s : State) (a : Addr) (f : Nat → Reg) {n : Nat} (hn : ((List.range (n + 1)).map f).Nodup) :
    ∀ k ≤ n, (s.loadRegs a ((List.range (n + 1)).map f)).readV (f k) = s.readByte (mask12 (a + BitVec.ofNat 16 k)) ∧
      (mask12 (a + BitVec.ofNat 16 k)).toNat = (a.toNat + k) % 4096 := by
  intro k hk
  have hlt : k < ((List.range (n + 1)).map f).length := by
    simp
    omega
  have h := s.readV_loadRegs a _ hn k hlt
  rw [List.getElem_map, List.getElem_range] at h
  exact ⟨h, toNat_mask12_add a k⟩

theorem exec_save (x y : Reg) (s : State) : exec (.save x y) s = .next (s.storeRegs s.I (regRange x y)) := rfl

theorem exec_load (x y : Reg) (s : State) : exec (.load x y) s = .next (s.loadRegs s.I (regRange x y)) := rfl

/-- Settles O32: either direction is a list `f 0, f 1, ...` of registers, stored ascending. -/
theorem saveStoresRegisterRange : Obligations.SaveStoresRegisterRange := by
  intro x y s
  have hx := x.isLt
  have hy := y.isLt
  refine ⟨_, exec_save x y s, fun h => ?_, fun h => ?_, exec_onlyChanges (exec_save x y s)⟩
  · rw [regRange_up h]
    exact storeRegs_map_range s s.I _ (by omega)
  · rw [regRange_down h]
    exact storeRegs_map_range s s.I _ (by omega)

theorem mem_regRange {x y r : Reg} (h : r ∈ regRange x y) :
    min x.toNat y.toNat ≤ r.toNat ∧ r.toNat ≤ max x.toNat y.toNat := by
  have hx := x.isLt
  have hy := y.isLt
  by_cases hle : x.toNat ≤ y.toNat
  · rw [regRange_up hle, List.mem_map] at h
    obtain ⟨k, hk, rfl⟩ := h
    rw [List.mem_range] at hk
    rw [BitVec.toNat_add, BitVec.toNat_ofNat]
    omega
  · rw [regRange_down (Nat.not_le.mp hle), List.mem_map] at h
    obtain ⟨k, hk, rfl⟩ := h
    rw [List.mem_range] at hk
    rw [BitVec.toNat_sub, BitVec.toNat_ofNat]
    omega

/-- Settles O33: either direction is a list `f 0, f 1, ...` of distinct registers, loaded ascending. -/
theorem loadReadsRegisterRange : Obligations.LoadReadsRegisterRange := by
  intro x y s
  refine ⟨_, exec_load x y s, fun h => ?_, fun h => ?_, fun r hr => ?_, exec_onlyChanges (exec_load x y s)⟩
  · rw [regRange_up h]
    exact readV_loadRegs_map_range s s.I _ (regRange_up h ▸ regRange_nodup x y)
  · rw [regRange_down h]
    exact readV_loadRegs_map_range s s.I _ (regRange_down h ▸ regRange_nodup x y)
  · refine s.readV_loadRegs_outside s.I _ r fun hmem => ?_
    have := mem_regRange hmem
    omega

/-! ### Flag bytes -/

theorem readFlag_eq (s : State) (k : Fin 8) : s.readFlag k.val = s.userFlags[k] := by
  simp [State.readFlag]

theorem mem_flagIndices (x : Reg) (k : Nat) : k ∈ flagIndices x ↔ k ≤ min x.toNat 7 := by
  rw [flagIndices, List.mem_range]
  omega

/-- Settles O34: `flagIndices` is `0..min(X, 7)`, and each transfer goes by number. -/
theorem flagBytesSaveAndRestore : Obligations.FlagBytesSaveAndRestore := by
  intro x s
  have hread (r : Reg) : (s.loadFlags (flagIndices x)).readV r =
      if r.toNat ≤ min x.toNat 7 then s.readFlag r.toNat else s.readV r := by
    rw [s.readV_loadFlags (flagIndices x) (fun k hk => by have := (mem_flagIndices x k).mp hk; omega) r]
    simp only [mem_flagIndices]
  refine ⟨⟨_, rfl, fun k => ?_, exec_onlyChanges (i := .ldRVx x) rfl⟩,
    ⟨_, rfl, fun k hk => ?_, fun r hr => ?_, exec_onlyChanges (i := .ldVxR x) rfl⟩⟩
  · rw [← readFlag_eq, ← readFlag_eq, State.readFlag_saveFlags]
    simp only [mem_flagIndices, k.isLt, and_true]
  · have hnum : (BitVec.ofNat 4 k.val).toNat = k.val := toNat_ofNat_nibble (by omega)
    rw [hread, hnum, if_pos hk, readFlag_eq]
  · rw [hread, if_neg (Nat.not_le.mpr hr)]

end Sys2Proof

/-! Which instruction may write each piece of state (10_state.md sections 2, 4, 5 and 7): the table `changes`, read
backwards. -/

namespace Sys2Proof

open Sys2Proof.Machine Sys2Proof.Claims

/-- A piece that an instruction changed is in its row of the table. -/
theorem of_change {i : Instr} {s t : State} {q : Piece} {writers : Prop} (h : exec i s = .next t)
    (hq : q ∈ changes i → writers) (hne : ¬ SameData s t q) : writers :=
  hq (Classical.byContradiction fun hmem => hne (exec_sameBut h q hmem))

/-- Settles O13: piece by piece, the rows of `changes` that list it. -/
theorem controlStateHasItsWriters : Obligations.ControlStateHasItsWriters := by
  intro i s t h
  have hsame := exec_sameBut h
  refine ⟨hsame .keys ?_, hsame .quirks ?_, hsame .diag ?_, of_change h (q := .hiRes) ?_,
    of_change h (q := .bitPlaneSelect) ?_, of_change h (q := .stopped) ?_,
    Or.rec (of_change h (q := .waitingForKey) ?_) (of_change h (q := .waitRegister) ?_),
    of_change h (q := .delayTimer) ?_, of_change h (q := .soundTimer) ?_, of_change h (q := .userFlags) ?_,
    of_change h (q := .audioBuffer) ?_, of_change h (q := .stack) ?_,
    Or.rec (of_change h (q := .sp) ?_) (of_change h (q := .fault) ?_), of_change h (q := .draws) ?_⟩
  all_goals cases i <;> simp [changes]

/-- With the quirk off the increment leaves `I` alone. -/
theorem incrementI_I_of_not_quirk {s : State} (h : ¬ s.quirks.loadStoreIncrementsI = true) (x : Reg) :
    (s.incrementI x).I = s.I := by
  simp [State.incrementI_eq, h]

/-- FX55 and FX65 change `I` only under the quirk. -/
theorem quirk_of_I_change {i : Instr} {s t : State} {x : Reg} (hi : i = .ldMemVx x ∨ i = .ldVxMem x)
    (h : exec i s = .next t) (hne : t.I ≠ s.I) : s.quirks.loadStoreIncrementsI = true := by
  refine Classical.byContradiction fun hq => hne ?_
  obtain rfl | rfl := hi <;> obtain rfl := Host.Outcome.next.inj h
  · rw [incrementI_I_of_not_quirk (by rwa [storeRegs_quirks]), storeRegs_I]
  · rw [incrementI_I_of_not_quirk (by rwa [loadRegs_quirks]), loadRegs_I]

/-- Settles O14: the rows of `changes` again, and the quirk for the two rows of `I` that it governs. -/
theorem memoryAndPlanesHaveTheirWriters : Obligations.MemoryAndPlanesHaveTheirWriters := by
  intro i s t h
  refine ⟨fun ⟨a, ha⟩ => ?_, ?_, fun hI => ?_⟩
  · refine of_change h (q := .memory) (fun hmem => ?_) fun hsame => ha (SameData.kept (q := .memory) hsame a)
    cases i <;> simp [changes] at hmem ⊢
  · refine Or.rec (of_change h (q := .planes) ?_) (of_change h (q := .redraw) ?_)
    all_goals cases i <;> simp [changes]
  · refine of_change h (q := .I) (fun hmem => ?_) hI
    cases i <;> simp [changes] at hmem ⊢
    case ldMemVx x => exact quirk_of_I_change (.inl rfl) h hI
    case ldVxMem x => exact quirk_of_I_change (.inr rfl) h hI

/-! ### General registers -/

theorem readV_writeResultAndFlag_outside (s : State) {x r : Reg} (result : Byte) (flag : Bool) (hx : r ≠ x)
    (hF : r ≠ regF) : (s.writeResultAndFlag x result flag).readV r = s.readV r := by
  rw [readV_writeResultAndFlag_of_ne s result flag hF, if_neg hx]

/-- A register that is no destination, and not `VF` of an instruction that writes a flag, keeps its value. -/
theorem readV_of_exec {i : Instr} {s t : State} {r : Reg} (h : exec i s = .next t) (hd : r ∉ destinations i)
    (hf : ¬ (r = regF ∧ writesFlag i = true)) : t.readV r = s.readV r := by
  by_cases hV : .V ∈ changes i
  · cases i <;> simp [changes] at hV <;> obtain rfl := Host.Outcome.next.inj h
    case load x y => exact s.readV_loadRegs_outside _ _ _ hd
    case ldVxMem x => exact s.readV_loadRegs_outside _ _ _ hd
    case ldVxR x =>
      refine (s.readV_loadFlags _ (fun k hk => ?_) r).trans (if_neg fun hmem => hd ?_)
      · have := (mem_flagIndices x k).mp hk
        omega
      · refine List.mem_map.mpr ⟨r.toNat, hmem, ?_⟩
        rw [BitVec.ofNat_toNat, BitVec.setWidth_eq]
    case drw x y n => exact State.readV_writeV_ne _ (fun hr => hf ⟨hr, rfl⟩) _
    case addVxVy | subVxVy | shrVxVy | subnVxVy | shlVxVy =>
      exact readV_writeResultAndFlag_outside s _ _ (List.ne_of_not_mem_cons hd) fun hr => hf ⟨hr, rfl⟩
    all_goals exact State.readV_writeV_ne _ (List.ne_of_not_mem_cons hd) _
  · exact (exec_sameBut h .V hV).kept r

/-- Settles O15: the contrapositive of `readV_of_exec`. -/
theorem registersChangeOnlyAsNamed : Obligations.RegistersChangeOnlyAsNamed := by
  intro i s t r h hne
  by_contra hnot
  obtain ⟨hd, hf⟩ := not_or.mp hnot
  exact hne (readV_of_exec h hd hf)

end Sys2Proof

/-! The sprite draw: the pixels that `spritePixels` lists are the placed ones, each listed once, so the draw flips each
once (43_graphics.md R170 to R175). -/

namespace Sys2Proof

open Sys2Proof.Machine Sys2Proof.Claims

/-! ### The listed pixels are the placed ones -/

theorem mem_selectedPlanes_zipIdx (s : State) (p : Fin 2) (j : Nat) :
    (p, j) ∈ s.selectedPlanes.zipIdx ↔ s.selected p = true ∧ j = planesBefore s p := by
  cases h0 : s.selected 0 <;> cases h1 : s.selected 1 <;>
    match p with
    | 0 | 1 => simp [State.selectedPlanes, planesBefore, h0, h1]

/-- Column `8 * b + c` of a row is the bit of weight `7 - c` of the row's byte `b`. -/
theorem sourceBit_eq (s : State) {n b c : Nat} (j r : Nat) (hb : b < spriteRowBytes n) (hc : c < 8) :
    sourceBit s n j r (8 * b + c) = (s.spriteByte n j r b).getLsbD (7 - c) := by
  have hbit : (8 * b + c) % 8 = c := by omega
  have hbyte : (8 * b + c) / 8 = b := by omega
  unfold sourceBit State.spriteByte spriteBytes spriteRows
  unfold spriteRowBytes at hb ⊢
  by_cases hn : n = 0
  · simp [hn, hbit, hbyte]
  · have hb0 : b = 0 := by simpa [hn] using hb
    simp [hn, hb0, Nat.mod_eq_of_lt hc]

theorem mem_placeBlock (s : State) (x0 y0 n j : Nat) (p : Fin 2) (q : PixelAt) :
    q ∈ s.placeBlock x0 y0 n j p ↔ q.p = p ∧ ∃ r c dy dx, r < spriteRows n ∧ c < 8 * spriteRowBytes n ∧
      dy < s.pixelFactor ∧ dx < s.pixelFactor ∧ sourceBit s n j r c = true ∧
      q.At s.quirks.spritesWrap ((x0 + c) * s.pixelFactor + dx) ((y0 + r) * s.pixelFactor + dy) := by
  simp only [State.placeBlock, List.mem_flatMap, List.mem_range, mem_placeByte, mem_placePixel]
  constructor
  · rintro ⟨r, hr, b, hb, c, hc, hbit, hp, dy, dx, hdy, hdx, hat⟩
    rw [← sourceBit_eq s j r hb hc] at hbit
    rw [Nat.add_assoc x0] at hat
    exact ⟨hp, r, 8 * b + c, dy, dx, hr, by omega, hdy, hdx, hbit, hat⟩
  · rintro ⟨hp, r, c, dy, dx, hr, hc, hdy, hdx, hbit, hat⟩
    have hb : c / 8 < spriteRowBytes n := by omega
    have hcol : 8 * (c / 8) + c % 8 = c := Nat.div_add_mod c 8
    refine ⟨r, hr, c / 8, hb, c % 8, by omega, ?_, hp, dy, dx, hdy, hdx, ?_⟩
    · rwa [← sourceBit_eq s j r hb (by omega), hcol]
    · rwa [Nat.add_assoc x0, hcol]

theorem mem_spritePixels (s : State) (x0 y0 n : Nat) (q : PixelAt) :
    q ∈ s.spritePixels x0 y0 n ↔ Placed s x0 y0 n q.p q.y q.x := by
  have hcols : 8 * spriteRowBytes n = if n = 0 then 16 else 8 := by
    unfold spriteRowBytes
    split <;> rfl
  simp only [State.spritePixels, List.mem_flatMap, Prod.exists, mem_selectedPlanes_zipIdx, mem_placeBlock, hcols]
  constructor
  · rintro ⟨p, j, ⟨hsel, rfl⟩, rfl, hblock⟩
    exact ⟨hsel, hblock⟩
  · rintro ⟨hsel, hblock⟩
    exact ⟨q.p, _, ⟨hsel, rfl⟩, rfl, hblock⟩

/-! ### Every pixel is listed once -/

theorem nodup_flatMap_range {α : Type} {f : Nat → List α} {n : Nat} (hnodup : ∀ i < n, (f i).Nodup)
    (hdisj : ∀ i < n, ∀ j < n, ∀ q, q ∈ f i → q ∈ f j → i = j) : ((List.range n).flatMap f).Nodup := by
  refine List.nodup_flatMap.mpr ⟨fun i hi => hnodup i (List.mem_range.mp hi), ?_⟩
  refine List.nodup_range.pairwise_of_forall_ne fun i hi j hj hne q hqi hqj => hne ?_
  exact hdisj i (List.mem_range.mp hi) j (List.mem_range.mp hj) q hqi hqj

/-- Wrapped or not, a pixel determines its coordinate modulo the plane's size. -/
theorem at_mod {wrap : Bool} {px py : Nat} {q : PixelAt} (h : q.At wrap px py) :
    q.x.val = px % 128 ∧ q.y.val = py % 64 := by
  have hx := q.x.isLt
  have hy := q.y.isLt
  cases wrap <;> simp [PixelAt.At] at h <;> omega

theorem nodup_placeScaled (wrap : Bool) (p : Fin 2) (px py : Nat) : (placeScaled wrap p px py).Nodup := by
  unfold placeScaled
  split
  · exact List.nodup_singleton _
  · split
    · exact List.nodup_singleton _
    · exact List.nodup_nil

theorem nodup_placePixel (wrap : Bool) {f : Nat} (hf : f ≤ 2) (p : Fin 2) (lx ly : Nat) :
    (placePixel wrap f p lx ly).Nodup := by
  refine nodup_flatMap_range (fun dy _ => nodup_flatMap_range (fun dx _ => nodup_placeScaled wrap p _ _) ?_) ?_
  · intro dx hdx dx' hdx' q hq hq'
    have h := at_mod ((mem_placeScaled ..).mp hq).2
    have h' := at_mod ((mem_placeScaled ..).mp hq').2
    omega
  · intro dy hdy dy' hdy' q hq hq'
    simp only [List.mem_flatMap, mem_placeScaled] at hq hq'
    obtain ⟨_, _, _, hat⟩ := hq
    obtain ⟨_, _, _, hat'⟩ := hq'
    have h := at_mod hat
    have h' := at_mod hat'
    omega

/-- The columns of a byte do not meet, even after wrapping. -/
theorem nodup_placeByte (wrap : Bool) {f : Nat} (hf : f = 1 ∨ f = 2) (p : Fin 2) (byte : Byte) (lx ly : Nat) :
    (placeByte wrap f p byte lx ly).Nodup := by
  refine nodup_flatMap_range (fun c _ => ?_) fun c hc c' hc' q hq hq' => ?_
  · split
    · exact nodup_placePixel wrap (by omega) p _ _
    · exact List.nodup_nil
  · have hcol {k : Nat} (h : q ∈ if byte.getLsbD (7 - k) then placePixel wrap f p (lx + k) ly else []) :
        ∃ dx < f, q.x.val = ((lx + k) * f + dx) % 128 := by
      split at h
      · obtain ⟨-, dy, dx, -, hdx, hat⟩ := (mem_placePixel ..).mp h
        exact ⟨dx, hdx, (at_mod hat).1⟩
      · cases h
    obtain ⟨dx, hdx, h⟩ := hcol hq
    obtain ⟨dx', hdx', h'⟩ := hcol hq'
    obtain rfl | rfl := hf <;> omega

theorem pixelFactor_eq (s : State) : s.pixelFactor = 1 ∨ s.pixelFactor = 2 := by
  unfold State.pixelFactor
  split
  · exact .inl rfl
  · exact .inr rfl

/-- Where a byte of the sprite can place a pixel. -/
theorem at_of_mem_placeByte {wrap : Bool} {f : Nat} {p : Fin 2} {byte : Byte} {lx ly : Nat} {q : PixelAt}
    (h : q ∈ placeByte wrap f p byte lx ly) : ∃ c < 8, ∃ dy < f, ∃ dx < f,
      q.x.val = ((lx + c) * f + dx) % 128 ∧ q.y.val = (ly * f + dy) % 64 := by
  obtain ⟨c, hc, -, hpix⟩ := (mem_placeByte ..).mp h
  obtain ⟨-, dy, dx, hdy, hdx, hat⟩ := (mem_placePixel ..).mp hpix
  exact ⟨c, hc, dy, hdy, dx, hdx, at_mod hat⟩

/-- The bytes of a row and the rows of a block do not meet, even after wrapping: a block is at most 32 by 32. -/
theorem nodup_placeBlock (s : State) (x0 y0 : Nat) {n : Nat} (hn : n < 16) (j : Nat) (p : Fin 2) :
    (s.placeBlock x0 y0 n j p).Nodup := by
  have hf := pixelFactor_eq s
  have hrows : spriteRows n ≤ 16 := by
    unfold spriteRows
    split <;> omega
  have hbytes : spriteRowBytes n ≤ 2 := by
    unfold spriteRowBytes
    split <;> omega
  refine nodup_flatMap_range (fun r _ => nodup_flatMap_range (fun b _ => nodup_placeByte _ hf p _ _ _) ?_) ?_
  · intro b hb b' hb' q hq hq'
    obtain ⟨c, hc, dy, hdy, dx, hdx, h, -⟩ := at_of_mem_placeByte hq
    obtain ⟨c', hc', dy', hdy', dx', hdx', h', -⟩ := at_of_mem_placeByte hq'
    generalize s.pixelFactor = f at *
    obtain rfl | rfl := hf <;> omega
  · intro r hr r' hr' q hq hq'
    obtain ⟨b, -, hq⟩ := List.mem_flatMap.mp hq
    obtain ⟨b', -, hq'⟩ := List.mem_flatMap.mp hq'
    obtain ⟨c, hc, dy, hdy, dx, hdx, -, h⟩ := at_of_mem_placeByte hq
    obtain ⟨c', hc', dy', hdy', dx', hdx', -, h'⟩ := at_of_mem_placeByte hq'
    generalize s.pixelFactor = f at *
    obtain rfl | rfl := hf <;> omega

theorem nodup_spritePixels (s : State) (x0 y0 : Nat) {n : Nat} (hn : n < 16) : (s.spritePixels x0 y0 n).Nodup := by
  refine List.nodup_flatMap.mpr ⟨fun pj _ => nodup_placeBlock s x0 y0 hn pj.2 pj.1, ?_⟩
  have hplanes : s.selectedPlanes.Nodup := List.Nodup.filter _ (by decide)
  have hfst : s.selectedPlanes.zipIdx.Pairwise fun pj pj' => pj.1 ≠ pj'.1 := by
    rw [← List.pairwise_map (f := Prod.fst), List.zipIdx_map_fst]
    exact hplanes
  refine hfst.imp fun hne q hq hq' => hne ?_
  exact ((mem_placeBlock ..).mp hq).1.symm.trans ((mem_placeBlock ..).mp hq').1

/-! ### The draw -/

theorem count_mod_two {qs : List PixelAt} (hn : qs.Nodup) (q : PixelAt) : qs.count q % 2 = 1 ↔ q ∈ qs := by
  by_cases h : q ∈ qs
  · simp [h, List.count_eq_one_of_mem hn h]
  · simp [h, List.count_eq_zero_of_not_mem h]

/-- What the draw leaves. -/
def drawn (s : State) (x y : Reg) (n : Nat) : State :=
  let r := blit (s.spritePixels (s.readV x).toNat (s.readV y).toNat n) s.planes false
  (s.setPlanes r.1).markRedraw.writeV regF (flagByte r.2)

theorem exec_drw (x y : Reg) (n : Nat) (s : State) : exec (.drw x y n) s = .next (drawn s x y n) := rfl

theorem pixel_drawn (s : State) (x y : Reg) {n : Nat} (hn : n < 16) (p : Fin 2) (py : Fin 64) (px : Fin 128) :
    (drawn s x y n).pixel p py px = (s.pixel p py px ^^
      decide (⟨p, py, px⟩ ∈ s.spritePixels (s.readV x).toNat (s.readV y).toNat n)) := by
  have hblit := pixelOf_blit (s.spritePixels (s.readV x).toNat (s.readV y).toNat n) s.planes false ⟨p, py, px⟩
  simp only [count_mod_two (nodup_spritePixels s _ _ hn)] at hblit
  exact hblit

theorem readV_regF_drawn (s : State) (x y : Reg) {n : Nat} (hn : n < 16) : (drawn s x y n).readV regF =
    flagByte ((s.spritePixels (s.readV x).toNat (s.readV y).toNat n).any (pixelOf s.planes)) := by
  rw [drawn, State.readV_writeV_same, blit_hit _ _ _ (nodup_spritePixels s _ _ hn), Bool.false_or]

/-- Settles O48: the toggled pixels are the placed ones, each once, and the flag is the hit among them. -/
theorem drawFlipsExactlyThePlacedPixels : Obligations.DrawFlipsExactlyThePlacedPixels := by
  intro x y n s hn
  refine ⟨drawn s x y n, exec_drw x y n s, fun p py px h => ?_, fun p py px h => ?_, fun ⟨p, py, px, h, hset⟩ => ?_,
    fun h => ?_, rfl, fun r hr => State.readV_writeV_ne _ (List.ne_of_not_mem_cons hr) _,
    exec_onlyChanges (exec_drw x y n s)⟩
  · rw [pixel_drawn s x y hn, decide_eq_true ((mem_spritePixels s _ _ n _).mpr h), Bool.xor_true]
  · rw [pixel_drawn s x y hn, decide_eq_false (mt (mem_spritePixels s _ _ n _).mp h), Bool.xor_false]
  · have hany := List.any_eq_true (p := pixelOf s.planes).mpr ⟨⟨p, py, px⟩, (mem_spritePixels s _ _ n _).mpr h, hset⟩
    rw [readV_regF_drawn s x y hn, hany]
    rfl
  · have hany := List.any_eq_false (p := pixelOf s.planes).mpr fun q hq =>
      Bool.eq_false_iff.mp (h q.p q.y q.x ((mem_spritePixels s _ _ n q).mp hq))
    rw [readV_regF_drawn s x y hn, hany]
    rfl

/-! ### Drawing twice -/

/-- What is placed depends only on state that a draw leaves alone. -/
theorem placed_congr {s t : State} (h : OnlyChanges [.V, .planes, .redraw] s t) (x0 y0 n : Nat) (p : Fin 2)
    (y : Fin 64) (x : Fin 128) : Placed t x0 y0 n p y x ↔ Placed s x0 y0 n p y x := by
  have hI : t.I = s.I := h .I (by decide)
  have hquirks : t.quirks = s.quirks := h .quirks (by decide)
  have hmem : ∀ a, t.readByte a = s.readByte a := h .memory (by decide)
  have hsel (p : Fin 2) : t.selected p = s.selected p :=
    congrArg (fun m : BitVec 2 => m.getLsbD p.val) (h .bitPlaneSelect (by decide))
  have hfactor : t.pixelFactor = s.pixelFactor :=
    congrArg (fun b : Bool => if b then 1 else 2) (h .hiRes (by decide))
  have hbefore : planesBefore t p = planesBefore s p := by rw [planesBefore, planesBefore, hsel]
  have hbit (j r c : Nat) : sourceBit t n j r c = sourceBit s n j r c := by rw [sourceBit, hmem, hI, sourceBit]
  rw [Placed, Placed, hsel, hfactor, hbefore, hquirks]
  simp only [hbit]

/-- Settles O49: the second draw places the same pixels, and meets a set one where the first met a clear one. -/
theorem drawingTwiceRestoresPixels : Obligations.DrawingTwiceRestoresPixels := by
  intro x y n s t u hn hx hy ht hu
  obtain ⟨t', ht', hflip, hkeep, -, -, -, hregs, hframe⟩ := drawFlipsExactlyThePlacedPixels x y n s hn
  obtain ⟨u', hu', hflip', hkeep', hhit, hmiss, -⟩ := drawFlipsExactlyThePlacedPixels x y n t hn
  obtain rfl := eq_of_exec ht ht'
  obtain rfl := eq_of_exec hu hu'
  have hVx : t.readV x = s.readV x := hregs x (by simpa using hx)
  have hVy : t.readV y = s.readV y := hregs y (by simpa using hy)
  simp only [hVx, hVy, placed_congr hframe] at hflip' hkeep' hhit hmiss
  refine ⟨fun p py px => ?_, fun hVF => ?_, fun ⟨p, py, px, h, hclear⟩ => hhit ⟨p, py, px, h, ?_⟩⟩
  · by_cases h : Placed s (s.readV x).toNat (s.readV y).toNat n p py px
    · rw [hflip' p py px h, hflip p py px h, Bool.not_not]
    · rw [hkeep' p py px h, hkeep p py px h]
  · by_contra hnone
    have hzero : u.readV regF = 0 := hmiss fun p py px h => by
      rw [hflip p py px h, Bool.not_eq_false']
      exact Bool.eq_true_of_not_eq_false fun hclear => hnone ⟨p, py, px, h, hclear⟩
    exact absurd (hzero.symm.trans hVF) (by decide)
  · rw [hflip p py px h, hclear]
    rfl

end Sys2Proof
